-- ==== Sys2Proof/Word.lean ====
section
/-! DEFINITION. The widths of the block's values (00_scope.md R10 to R12): a nibble, a byte, a 16-bit word,
a raw instruction as its two bytes, and a 4-tuple, the form of everything the spec indexes by nibble
position (patterns, masks, nibbles of a word, keys). -/

namespace Sys2Proof

/-- R12: `Nibble`, 0 to 15, one hexadecimal digit. A slice of a word, so a bit vector. -/
abbrev Nibble := BitVec 4

/-- R12: `Byte`, 0 to 255. -/
abbrev Byte := BitVec 8

/-- R10: the 16-bit instruction word `w`. -/
abbrev Word := BitVec 16

/-- R12: `Raw`, a pair of bytes `(b0, b1)`, `b0` the first in file order. -/
structure Raw where
  b0 : Byte
  b1 : Byte
  deriving DecidableEq, Repr

/-- Four things, one for each nibble position; `n0` is the leftmost, most significant (R11). -/
structure Quad (α : Type) where
  n0 : α
  n1 : α
  n2 : α
  n3 : α
  deriving DecidableEq, Repr

end Sys2Proof
end

