-- ==== Sys2Proof/Machine/Types.lean ====
section
/-! DEFINITION. The types of 00_scope.md R12 and of the records of 40_table_compilation.md R103 and R108:
pattern and mask characters, kinds, runs, builders, keys, patterns, entries, symbols, results, and the
port encoding of 10_state.md R42 and R43. Types only. -/

namespace Sys2Proof.Machine

/-- R6: `SYMBOLS`, the symbol characters of a pattern. -/
inductive SymChar where
  | N
  | X
  | Y
  deriving DecidableEq, Repr

/-- R12: `PatChar`, one character of a validated pattern. -/
inductive PatChar where
  | hex (v : Nibble)
  | sym (c : SymChar)
  deriving DecidableEq, Repr

/-- R12, R7: `MaskChar`, a pattern character or the placeholder `_`. -/
inductive MaskChar where
  | pat (c : PatChar)
  | placeholder
  deriving DecidableEq, Repr

/-- R12: `Kind` of a symbol; a closed set (R134). -/
inductive Kind where
  | opFrag
  | register
  | constant
  deriving DecidableEq, Repr

/-- R12: `Run`, a kind and how many adjacent nibbles it takes. -/
structure Run where
  kind : Kind
  len : Nat
  deriving DecidableEq, Repr

/-- R12: `Builder`, an ordered list of runs. -/
abbrev Builder := List Run

/-- R105: a run of the scan of a mask, before its character is turned into a kind. -/
structure CharRun where
  char : MaskChar
  len : Nat
  deriving DecidableEq, Repr

/-- R12: `Key`, the fixed-nibble tuple; `none` is "unconstrained". -/
abbrev Key := Quad (Option Nibble)

/-- R8: `TABLE`, ordered rows (hex pattern, mnemonic), as given and not yet validated. -/
abbrev Table := List (String × String)

/-- R103: the `Pattern` record, one row of the pattern ROM. -/
structure Pattern where
  hexPattern : String
  mnemonic : String
  fixedMask : Quad MaskChar
  variableMask : Quad MaskChar
  fixedTuple : Key
  index : Nat
  deriving DecidableEq, Repr

/-- R108: the `Entry` record, one shape of the dispatch ROM. `map` is a finite map held as a list of
pairs in insertion order (R23), each key at most once. -/
structure Entry where
  variableMask : Quad MaskChar
  builder : Builder
  map : List (Key × Pattern)
  deriving DecidableEq, Repr

/-- R12: `Dispatcher`, the ordered list of entries. -/
abbrev Dispatcher := List Entry

/-- R12, R134: `Symbol`, a kind and the nibbles it was built from. -/
structure Symbol where
  kind : Kind
  nibbles : List Nibble
  deriving DecidableEq, Repr

/-- R12, R138: `Decoded`, the abstract result of R40. -/
inductive Decoded where
  | known (raw : Raw) (pattern : Pattern) (symbols : List Symbol)
  | unknown (raw : Raw) (symbols : List Symbol)
  deriving DecidableEq, Repr

/-- R43: one symbol slot of the output ports. -/
structure Slot where
  kind : BitVec 2
  pos : BitVec 2
  len : BitVec 3
  val : BitVec 16
  deriving DecidableEq, Repr, Inhabited

/-- R42 and R43: the output ports, each of the width given there. -/
structure Ports where
  hitO : Bool
  unknownO : Bool
  diagO : Bool
  shapeO : BitVec 3
  opcodeO : BitVec 6
  nsymO : BitVec 3
  slot0 : Slot
  slot1 : Slot
  slot2 : Slot
  slot3 : Slot
  deriving DecidableEq, Repr, Inhabited

/-- R109, `COLLISION_LINT`: a later row that registers under the shape and key of an earlier one. -/
structure Collision where
  earlier : Nat
  later : Nat
  deriving DecidableEq, Repr

end Sys2Proof.Machine
end

