-- ==== Sys2Proof/Machine/Flags.lean ====
section
/-! DEFINITION. The block holds no flag or condition code and no decode writes one (10_state.md R32). What
stands in a flag's place are the three one-bit match outputs of R42, functions of the present result
alone; none is latched (R46, 60_exceptions.md R226). -/

namespace Sys2Proof.Machine

/-- R42: `hit_o`, 1 when the result is `Known`. -/
def hitO : Decoded → Bool
  | .known _ _ _ => true
  | .unknown _ _ => false

/-- R42: `unknown_o`, the complement of `hit_o`. -/
def unknownO (d : Decoded) : Bool := !hitO d

/-- R42, R226, R212: `diag_o`, the diagnostic, equal to `unknown_o`. -/
def diagO (d : Decoded) : Bool := unknownO d

end Sys2Proof.Machine
end

