-- ==== Sys2Proof/Config.lean ====
section
/-! DEFINITION. What an implementation fixes (00_scope.md R5, R7, R9; 92_eei_decisions.md) and the free
values of what the spec leaves open (93_implementation_defined.md V1 and U5). -/

namespace Sys2Proof.Config

open Sys2Proof.Machine

/-- R5: `SIZE`, bytes of a raw instruction. -/
def size : Nat := 2

/-- R5: `NIBBLES`. -/
def nibbles : Nat := 4

/-- R5: `PATTERN_LEN`, characters of a pattern. -/
def patternLen : Nat := 4

/-- R9: `MAX_REGISTER_RUN`. -/
def maxRegisterRun : Nat := 1

/-- R9: `MAX_CONSTANT_RUN`. -/
def maxConstantRun : Nat := 3

/-- R9: `MAX_SYMBOLS`. -/
def maxSymbols : Nat := 4

/-- R9: `HEX_PREFIX`. -/
def hexPrefix : String := "0x"

/-- R9: `REG_PREFIX`. -/
def regPrefix : String := "V"

/-- R9: `UNKNOWN_MNEMONIC`. -/
def unknownMnemonic : String := "UNKNOWN"

/-- R42, D4: `shape_o` of an unknown word. -/
def unknownShape : BitVec 3 := 7

/-- R42, D4: `opcode_o` of an unknown word. -/
def unknownOpcode : BitVec 6 := 63

/-- R9, D7: `COLLISION_LINT`, default off; it changes no table content. -/
def collisionLint : Bool := false

/-- FREE VALUE (V1, R46, R47, R251): what the output ports carry while `instr_i` is not driven with a
defined word, for the `k`-th such instant. Log entry 3. -/
opaque undrivenPorts : Nat → Ports

/-- FREE VALUE (U5, D19): `STREAM_PREFIX_ON_ERROR`, whether the results before a dangling byte are
delivered. Log entry 5. -/
opaque streamPrefixOnError : Bool

end Sys2Proof.Config
end

