-- ==== Sys2Proof/Machine/Codec.lean ====
section
/-! DEFINITION. The codec functions of 00_scope.md R14 (`as_nibbles`, `nibbles_to_int`,
`nibbles_to_hex`), the byte order of 20_memory.md R50 to R52, and the digits of R135. -/

namespace Sys2Proof

/-- The elements in position order. -/
def Quad.toList {α : Type} (q : Quad α) : List α := [q.n0, q.n1, q.n2, q.n3]

/-- The tuple with `f` applied at each position. -/
def Quad.map {α β : Type} (f : α → β) (q : Quad α) : Quad β := ⟨f q.n0, f q.n1, f q.n2, f q.n3⟩

/-- R50: `w = b0 * 256 + b1`, big-endian. -/
def Raw.word (r : Raw) : Word := r.b0 ++ r.b1

/-- R41: byte 0 is `w[15:8]`, byte 1 is `w[7:0]`. -/
def Raw.ofWord (w : Word) : Raw := ⟨w.extractLsb' 8 8, w.extractLsb' 0 8⟩

/-- The raw instruction with nibbles `n0 n1 n2 n3` (R11, R51). -/
def Raw.ofNibbles (n0 n1 n2 n3 : Nibble) : Raw := ⟨n0 ++ n1, n2 ++ n3⟩

/-- The two bytes in file order (R50). -/
def Raw.bytes (r : Raw) : List Byte := [r.b0, r.b1]

namespace Machine

/-- The more significant nibble of a byte, `b[7:4]`. -/
def highNibble (b : Byte) : Nibble := b.extractLsb' 4 4

/-- The less significant nibble of a byte, `b[3:0]`. -/
def lowNibble (b : Byte) : Nibble := b.extractLsb' 0 4

/-- R14, R51: `as_nibbles`, most significant first. -/
def asNibbles (r : Raw) : Quad Nibble :=
  ⟨highNibble r.b0, lowNibble r.b0, highNibble r.b1, lowNibble r.b1⟩

/-- R14, R135: `nibbles_to_int`, the big-endian unsigned value; the empty list gives 0. -/
def nibblesToInt (ns : List Nibble) : Nat := ns.foldl (fun acc n => acc * 16 + n.toNat) 0

/-- R135: `digits_L`, `v` as `L` hexadecimal digits, most significant first. -/
def digits : Nat → Nat → List Nibble
  | 0, _ => []
  | len + 1, v => digits len (v / 16) ++ [BitVec.ofNat 4 v]

/-- R140: `hexdigit`, the characters from `0` on for 0 to 9 and those from `A` on for 10 to 15. -/
def hexDigit (v : Nibble) : Char :=
  if v.toNat < 10 then Char.ofNat ('0'.toNat + v.toNat) else Char.ofNat ('A'.toNat + (v.toNat - 10))

/-- R14, R93: `nibbles_to_hex`, the prefix and exactly one digit for each nibble. -/
def nibblesToHex (ns : List Nibble) : String := Config.hexPrefix ++ String.ofList (ns.map hexDigit)

end Machine

end Sys2Proof
end

