-- ==== Sys2Proof/Syntax.lean ====
section
/-! DEFINITION. The syntax of decoded instructions: one constructor for each row of
spec/opcode_table.json, in the table's order (30_encoding.md R84, R85). Operands are the fields of
R80 and R81: `x` and `y` register indexes of one nibble, `nnn`, `nn`, `n` constants of 3, 2 and 1
nibbles. `unknown` is the fallback row (46_unknown.md R210) and carries the whole word. -/

namespace Sys2Proof

/-- The instructions the block recognises, and the unknown fallback. -/
inductive Instr where
  /-- R150: `00E0` `CLEAR`. -/
  | clear
  /-- R151: `00EE` `RETURN`. -/
  | ret
  /-- R152: `1NNN` `GOTO`. -/
  | goto (nnn : BitVec 12)
  /-- R153: `2NNN` `CALL`. -/
  | call (nnn : BitVec 12)
  /-- R160: `3XNN` `SIEQ`. -/
  | sieq (x : Nibble) (nn : BitVec 8)
  /-- R161: `4XNN` `SINE`. -/
  | sine (x : Nibble) (nn : BitVec 8)
  /-- R170: `5XY0` `SREQ`. -/
  | sreq (x y : Nibble)
  /-- R162: `6XNN` `SETR`. -/
  | setr (x : Nibble) (nn : BitVec 8)
  /-- R163: `7XNN` `ADDI`. -/
  | addi (x : Nibble) (nn : BitVec 8)
  /-- R171: `8XY0` `COPY`. -/
  | copy (x y : Nibble)
  /-- R172: `8XY1` `OR`. -/
  | or (x y : Nibble)
  /-- R173: `8XY2` `AND`. -/
  | and (x y : Nibble)
  /-- R174: `8XY3` `XOR`. -/
  | xor (x y : Nibble)
  /-- R175: `8XY4` `ADD`. -/
  | add (x y : Nibble)
  /-- R176: `8XY5` `SUB`. -/
  | sub (x y : Nibble)
  /-- R177: `8XY6` `SHIFTR`. -/
  | shiftr (x y : Nibble)
  /-- R178: `8XY7` `SUB-`. -/
  | subn (x y : Nibble)
  /-- R179: `8XYE` `SHIFTL`. -/
  | shiftl (x y : Nibble)
  /-- R180: `9XY0` `SRNE`. -/
  | srne (x y : Nibble)
  /-- R154: `ANNN` `SETI`. -/
  | seti (nnn : BitVec 12)
  /-- R155: `BNNN` `JUMPR`. -/
  | jumpr (nnn : BitVec 12)
  /-- R164: `CXNN` `RAND`. -/
  | rand (x : Nibble) (nn : BitVec 8)
  /-- R181: `DXYN` `DRAW`. -/
  | draw (x y : Nibble) (n : Nibble)
  /-- R190: `EX9E` `SKPR`. -/
  | skpr (x : Nibble)
  /-- R191: `EXA1` `SKNP`. -/
  | sknp (x : Nibble)
  /-- R192: `FX07` `RDEL`. -/
  | rdel (x : Nibble)
  /-- R193: `FX0A` `KEY`. -/
  | key (x : Nibble)
  /-- R194: `FX15` `TDEL`. -/
  | tdel (x : Nibble)
  /-- R195: `FX18` `TSND`. -/
  | tsnd (x : Nibble)
  /-- R196: `FX1E` `IADD`. -/
  | iadd (x : Nibble)
  /-- R197: `FX29` `CHAR`. -/
  | char (x : Nibble)
  /-- R198: `FX33` `DEC`. -/
  | dec (x : Nibble)
  /-- R199: `FX55` `DUMP`. -/
  | dump (x : Nibble)
  /-- R200: `FX65` `LOAD`. -/
  | load (x : Nibble)
  /-- R210: `any word no row matches` `UNKNOWN`. -/
  | unknown (w : Word)
  deriving DecidableEq, Repr

end Sys2Proof
end

