-- ==== Sys2Proof/Machine/Encoding.lean ====
section
/-! DEFINITION. The encoding table: for each of the 34 pattern rows of spec/opcode_table.json its mask,
its match and the operand fields of its format (30_encoding.md R72, R80, R81, R84, R85). Transcribed from
the table, not computed from the pattern ROM, so that the two can be held against each other. -/

namespace Sys2Proof.Machine

/-- R72, R80: register operand `X`, `w[11:8]`. -/
def fieldX (w : Word) : Nibble := w.extractLsb' 8 4

/-- R72, R80: register operand `Y`, `w[7:4]`. -/
def fieldY (w : Word) : Nibble := w.extractLsb' 4 4

/-- R81, format S4: constant `N`, `w[3:0]`. -/
def fieldN (w : Word) : Nibble := w.extractLsb' 0 4

/-- R81, format S2: constant `NN`, `w[7:0]`. -/
def fieldNN (w : Word) : BitVec 8 := w.extractLsb' 0 8

/-- R81, format S1: constant `NNN`, `w[11:0]`. -/
def fieldNNN (w : Word) : BitVec 12 := w.extractLsb' 0 12

/-- One row of the encoding table: a word `w` matches it exactly when `(w AND mask) = match` (R85). -/
structure EncRow where
  mnemonic : String
  mask : Word
  value : Word
  instr : Word → Instr

/-- R85: does `w` match the row? -/
def EncRow.hits (r : EncRow) (w : Word) : Bool := w &&& r.mask == r.value

/-- The rows of format S0 (R72; R150, R151). -/
def encRowsS0 : List EncRow :=
  [ ⟨"CLEAR", 0xFFFF, 0x00E0, fun _ => .clear⟩,
    ⟨"RETURN", 0xFFFF, 0x00EE, fun _ => .ret⟩ ]

/-- The rows of format S1 (R72; R152 to R155). -/
def encRowsS1 : List EncRow :=
  [ ⟨"GOTO", 0xF000, 0x1000, fun w => .goto (fieldNNN w)⟩,
    ⟨"CALL", 0xF000, 0x2000, fun w => .call (fieldNNN w)⟩,
    ⟨"SETI", 0xF000, 0xA000, fun w => .seti (fieldNNN w)⟩,
    ⟨"JUMPR", 0xF000, 0xB000, fun w => .jumpr (fieldNNN w)⟩ ]

/-- The rows of format S2 (R72; R160 to R164). -/
def encRowsS2 : List EncRow :=
  [ ⟨"SIEQ", 0xF000, 0x3000, fun w => .sieq (fieldX w) (fieldNN w)⟩,
    ⟨"SINE", 0xF000, 0x4000, fun w => .sine (fieldX w) (fieldNN w)⟩,
    ⟨"SETR", 0xF000, 0x6000, fun w => .setr (fieldX w) (fieldNN w)⟩,
    ⟨"ADDI", 0xF000, 0x7000, fun w => .addi (fieldX w) (fieldNN w)⟩,
    ⟨"RAND", 0xF000, 0xC000, fun w => .rand (fieldX w) (fieldNN w)⟩ ]

/-- The rows of format S3 (R72; R170 to R180). -/
def encRowsS3 : List EncRow :=
  [ ⟨"SREQ", 0xF00F, 0x5000, fun w => .sreq (fieldX w) (fieldY w)⟩,
    ⟨"COPY", 0xF00F, 0x8000, fun w => .copy (fieldX w) (fieldY w)⟩,
    ⟨"OR", 0xF00F, 0x8001, fun w => .or (fieldX w) (fieldY w)⟩,
    ⟨"AND", 0xF00F, 0x8002, fun w => .and (fieldX w) (fieldY w)⟩,
    ⟨"XOR", 0xF00F, 0x8003, fun w => .xor (fieldX w) (fieldY w)⟩,
    ⟨"ADD", 0xF00F, 0x8004, fun w => .add (fieldX w) (fieldY w)⟩,
    ⟨"SUB", 0xF00F, 0x8005, fun w => .sub (fieldX w) (fieldY w)⟩,
    ⟨"SHIFTR", 0xF00F, 0x8006, fun w => .shiftr (fieldX w) (fieldY w)⟩,
    ⟨"SUB-", 0xF00F, 0x8007, fun w => .subn (fieldX w) (fieldY w)⟩,
    ⟨"SHIFTL", 0xF00F, 0x800E, fun w => .shiftl (fieldX w) (fieldY w)⟩,
    ⟨"SRNE", 0xF00F, 0x9000, fun w => .srne (fieldX w) (fieldY w)⟩ ]

/-- The rows of format S4 (R72; R181). -/
def encRowsS4 : List EncRow :=
  [ ⟨"DRAW", 0xF000, 0xD000, fun w => .draw (fieldX w) (fieldY w) (fieldN w)⟩ ]

/-- The rows of format S5 (R72; R190 to R200). -/
def encRowsS5 : List EncRow :=
  [ ⟨"SKPR", 0xF0FF, 0xE09E, fun w => .skpr (fieldX w)⟩,
    ⟨"SKNP", 0xF0FF, 0xE0A1, fun w => .sknp (fieldX w)⟩,
    ⟨"RDEL", 0xF0FF, 0xF007, fun w => .rdel (fieldX w)⟩,
    ⟨"KEY", 0xF0FF, 0xF00A, fun w => .key (fieldX w)⟩,
    ⟨"TDEL", 0xF0FF, 0xF015, fun w => .tdel (fieldX w)⟩,
    ⟨"TSND", 0xF0FF, 0xF018, fun w => .tsnd (fieldX w)⟩,
    ⟨"IADD", 0xF0FF, 0xF01E, fun w => .iadd (fieldX w)⟩,
    ⟨"CHAR", 0xF0FF, 0xF029, fun w => .char (fieldX w)⟩,
    ⟨"DEC", 0xF0FF, 0xF033, fun w => .dec (fieldX w)⟩,
    ⟨"DUMP", 0xF0FF, 0xF055, fun w => .dump (fieldX w)⟩,
    ⟨"LOAD", 0xF0FF, 0xF065, fun w => .load (fieldX w)⟩ ]

/-- R84: the 34 rows. They are pairwise disjoint (R85), so their order here plays no part. -/
def encTable : List EncRow :=
  encRowsS0 ++ encRowsS1 ++ encRowsS2 ++ encRowsS3 ++ encRowsS4 ++ encRowsS5

end Sys2Proof.Machine
end

