-- ==== Sys2Proof/Machine/Operands.lean ====
section
/-! DEFINITION. The operand forms: the six formats of 30_encoding.md R72 as nibbles of a raw instruction,
and what the spec says of a symbol as an operand (R80 to R83, 41_decode_resolution.md R131 to R134). -/

namespace Sys2Proof.Machine

/-- Format S0 (R72): four fixed nibbles. -/
def rawS0 (n0 n1 n2 n3 : Nibble) : Raw := Raw.ofNibbles n0 n1 n2 n3

/-- Format S1 (R72): `op NNN`; the constant spans the byte boundary (R52). -/
def rawS1 (op : Nibble) (nnn : BitVec 12) : Raw :=
  Raw.ofNibbles op (nnn.extractLsb' 8 4) (nnn.extractLsb' 4 4) (nnn.extractLsb' 0 4)

/-- Format S2 (R72): `op X NN`. -/
def rawS2 (op x : Nibble) (nn : BitVec 8) : Raw :=
  Raw.ofNibbles op x (highNibble nn) (lowNibble nn)

/-- Format S3 (R72): `op X Y op`. -/
def rawS3 (op x y low : Nibble) : Raw := Raw.ofNibbles op x y low

/-- Format S4 (R72): `op X Y N`. -/
def rawS4 (op x y n : Nibble) : Raw := Raw.ofNibbles op x y n

/-- Format S5 (R72): `op X` and two fixed nibbles. -/
def rawS5 (op x n2 n3 : Nibble) : Raw := Raw.ofNibbles op x n2 n3

/-- R134: `variable(sym)`, is the symbol an operand? -/
def Symbol.isOperand (y : Symbol) : Bool :=
  match y.kind with
  | .register => true
  | .constant => true
  | .opFrag => false

/-- R134: `nibble_count`. -/
def Symbol.nibbleCount (y : Symbol) : Nat := y.nibbles.length

/-- R80 to R82, R131 to R133, D28: the number a symbol carries; a register's index, a constant's value,
an opcode fragment's fixed digits. -/
def Symbol.value (y : Symbol) : Nat := nibblesToInt y.nibbles

end Sys2Proof.Machine
end

