-- ==== Sys2Proof/Machine/Rom.lean ====
section
/-! DEFINITION. The ROM contents and the shipped table, transcribed from 10_state.md R21, R22 and R23 (and
not computed): the 34 rows of the pattern ROM with their masks and tuples, the six entries of the
dispatch ROM with their builders and 34 keys. That compiling the table gives exactly these is a
statement of its own. -/

namespace Sys2Proof.Machine

/-- A hexadecimal digit in a mask. -/
def Rom.h (v : Nibble) : MaskChar := .pat (.hex v)

/-- The symbol character `N` in a mask. -/
def Rom.sN : MaskChar := .pat (.sym .N)

/-- The symbol character `X` in a mask. -/
def Rom.sX : MaskChar := .pat (.sym .X)

/-- The symbol character `Y` in a mask. -/
def Rom.sY : MaskChar := .pat (.sym .Y)

/-- The placeholder `_` in a mask (R7). -/
def Rom.u : MaskChar := .placeholder

open Rom

/-- R8, R21: the shipped table, in the table's order. -/
def shippedTable : Table :=
  [ ("00E0", "CLEAR"), ("00EE", "RETURN"), ("1NNN", "GOTO"), ("2NNN", "CALL"),
    ("3XNN", "SIEQ"), ("4XNN", "SINE"), ("5XY0", "SREQ"), ("6XNN", "SETR"),
    ("7XNN", "ADDI"), ("8XY0", "COPY"), ("8XY1", "OR"), ("8XY2", "AND"),
    ("8XY3", "XOR"), ("8XY4", "ADD"), ("8XY5", "SUB"), ("8XY6", "SHIFTR"),
    ("8XY7", "SUB-"), ("8XYE", "SHIFTL"), ("9XY0", "SRNE"), ("ANNN", "SETI"),
    ("BNNN", "JUMPR"), ("CXNN", "RAND"), ("DXYN", "DRAW"), ("EX9E", "SKPR"),
    ("EXA1", "SKNP"), ("FX07", "RDEL"), ("FX0A", "KEY"), ("FX15", "TDEL"),
    ("FX18", "TSND"), ("FX1E", "IADD"), ("FX29", "CHAR"), ("FX33", "DEC"),
    ("FX55", "DUMP"), ("FX65", "LOAD") ]

/-- R21, row 0. -/
def row0 : Pattern :=
  ⟨"00E0", "CLEAR", ⟨h 0x0, h 0x0, h 0xE, h 0x0⟩, ⟨u, u, u, u⟩, ⟨some 0, some 0, some 14, some 0⟩, 0⟩

/-- R21, row 1. -/
def row1 : Pattern :=
  ⟨"00EE", "RETURN", ⟨h 0x0, h 0x0, h 0xE, h 0xE⟩, ⟨u, u, u, u⟩, ⟨some 0, some 0, some 14, some 14⟩, 1⟩

/-- R21, row 2. -/
def row2 : Pattern :=
  ⟨"1NNN", "GOTO", ⟨h 0x1, u, u, u⟩, ⟨u, sN, sN, sN⟩, ⟨some 1, none, none, none⟩, 2⟩

/-- R21, row 3. -/
def row3 : Pattern :=
  ⟨"2NNN", "CALL", ⟨h 0x2, u, u, u⟩, ⟨u, sN, sN, sN⟩, ⟨some 2, none, none, none⟩, 3⟩

/-- R21, row 4. -/
def row4 : Pattern :=
  ⟨"3XNN", "SIEQ", ⟨h 0x3, u, u, u⟩, ⟨u, sX, sN, sN⟩, ⟨some 3, none, none, none⟩, 4⟩

/-- R21, row 5. -/
def row5 : Pattern :=
  ⟨"4XNN", "SINE", ⟨h 0x4, u, u, u⟩, ⟨u, sX, sN, sN⟩, ⟨some 4, none, none, none⟩, 5⟩

/-- R21, row 6. -/
def row6 : Pattern :=
  ⟨"5XY0", "SREQ", ⟨h 0x5, u, u, h 0x0⟩, ⟨u, sX, sY, u⟩, ⟨some 5, none, none, some 0⟩, 6⟩

/-- R21, row 7. -/
def row7 : Pattern :=
  ⟨"6XNN", "SETR", ⟨h 0x6, u, u, u⟩, ⟨u, sX, sN, sN⟩, ⟨some 6, none, none, none⟩, 7⟩

/-- R21, row 8. -/
def row8 : Pattern :=
  ⟨"7XNN", "ADDI", ⟨h 0x7, u, u, u⟩, ⟨u, sX, sN, sN⟩, ⟨some 7, none, none, none⟩, 8⟩

/-- R21, row 9. -/
def row9 : Pattern :=
  ⟨"8XY0", "COPY", ⟨h 0x8, u, u, h 0x0⟩, ⟨u, sX, sY, u⟩, ⟨some 8, none, none, some 0⟩, 9⟩

/-- R21, row 10. -/
def row10 : Pattern :=
  ⟨"8XY1", "OR", ⟨h 0x8, u, u, h 0x1⟩, ⟨u, sX, sY, u⟩, ⟨some 8, none, none, some 1⟩, 10⟩

/-- R21, row 11. -/
def row11 : Pattern :=
  ⟨"8XY2", "AND", ⟨h 0x8, u, u, h 0x2⟩, ⟨u, sX, sY, u⟩, ⟨some 8, none, none, some 2⟩, 11⟩

/-- R21, row 12. -/
def row12 : Pattern :=
  ⟨"8XY3", "XOR", ⟨h 0x8, u, u, h 0x3⟩, ⟨u, sX, sY, u⟩, ⟨some 8, none, none, some 3⟩, 12⟩

/-- R21, row 13. -/
def row13 : Pattern :=
  ⟨"8XY4", "ADD", ⟨h 0x8, u, u, h 0x4⟩, ⟨u, sX, sY, u⟩, ⟨some 8, none, none, some 4⟩, 13⟩

/-- R21, row 14. -/
def row14 : Pattern :=
  ⟨"8XY5", "SUB", ⟨h 0x8, u, u, h 0x5⟩, ⟨u, sX, sY, u⟩, ⟨some 8, none, none, some 5⟩, 14⟩

/-- R21, row 15. -/
def row15 : Pattern :=
  ⟨"8XY6", "SHIFTR", ⟨h 0x8, u, u, h 0x6⟩, ⟨u, sX, sY, u⟩, ⟨some 8, none, none, some 6⟩, 15⟩

/-- R21, row 16. -/
def row16 : Pattern :=
  ⟨"8XY7", "SUB-", ⟨h 0x8, u, u, h 0x7⟩, ⟨u, sX, sY, u⟩, ⟨some 8, none, none, some 7⟩, 16⟩

/-- R21, row 17. -/
def row17 : Pattern :=
  ⟨"8XYE", "SHIFTL", ⟨h 0x8, u, u, h 0xE⟩, ⟨u, sX, sY, u⟩, ⟨some 8, none, none, some 14⟩, 17⟩

/-- R21, row 18. -/
def row18 : Pattern :=
  ⟨"9XY0", "SRNE", ⟨h 0x9, u, u, h 0x0⟩, ⟨u, sX, sY, u⟩, ⟨some 9, none, none, some 0⟩, 18⟩

/-- R21, row 19. -/
def row19 : Pattern :=
  ⟨"ANNN", "SETI", ⟨h 0xA, u, u, u⟩, ⟨u, sN, sN, sN⟩, ⟨some 10, none, none, none⟩, 19⟩

/-- R21, row 20. -/
def row20 : Pattern :=
  ⟨"BNNN", "JUMPR", ⟨h 0xB, u, u, u⟩, ⟨u, sN, sN, sN⟩, ⟨some 11, none, none, none⟩, 20⟩

/-- R21, row 21. -/
def row21 : Pattern :=
  ⟨"CXNN", "RAND", ⟨h 0xC, u, u, u⟩, ⟨u, sX, sN, sN⟩, ⟨some 12, none, none, none⟩, 21⟩

/-- R21, row 22. -/
def row22 : Pattern :=
  ⟨"DXYN", "DRAW", ⟨h 0xD, u, u, u⟩, ⟨u, sX, sY, sN⟩, ⟨some 13, none, none, none⟩, 22⟩

/-- R21, row 23. -/
def row23 : Pattern :=
  ⟨"EX9E", "SKPR", ⟨h 0xE, u, h 0x9, h 0xE⟩, ⟨u, sX, u, u⟩, ⟨some 14, none, some 9, some 14⟩, 23⟩

/-- R21, row 24. -/
def row24 : Pattern :=
  ⟨"EXA1", "SKNP", ⟨h 0xE, u, h 0xA, h 0x1⟩, ⟨u, sX, u, u⟩, ⟨some 14, none, some 10, some 1⟩, 24⟩

/-- R21, row 25. -/
def row25 : Pattern :=
  ⟨"FX07", "RDEL", ⟨h 0xF, u, h 0x0, h 0x7⟩, ⟨u, sX, u, u⟩, ⟨some 15, none, some 0, some 7⟩, 25⟩

/-- R21, row 26. -/
def row26 : Pattern :=
  ⟨"FX0A", "KEY", ⟨h 0xF, u, h 0x0, h 0xA⟩, ⟨u, sX, u, u⟩, ⟨some 15, none, some 0, some 10⟩, 26⟩

/-- R21, row 27. -/
def row27 : Pattern :=
  ⟨"FX15", "TDEL", ⟨h 0xF, u, h 0x1, h 0x5⟩, ⟨u, sX, u, u⟩, ⟨some 15, none, some 1, some 5⟩, 27⟩

/-- R21, row 28. -/
def row28 : Pattern :=
  ⟨"FX18", "TSND", ⟨h 0xF, u, h 0x1, h 0x8⟩, ⟨u, sX, u, u⟩, ⟨some 15, none, some 1, some 8⟩, 28⟩

/-- R21, row 29. -/
def row29 : Pattern :=
  ⟨"FX1E", "IADD", ⟨h 0xF, u, h 0x1, h 0xE⟩, ⟨u, sX, u, u⟩, ⟨some 15, none, some 1, some 14⟩, 29⟩

/-- R21, row 30. -/
def row30 : Pattern :=
  ⟨"FX29", "CHAR", ⟨h 0xF, u, h 0x2, h 0x9⟩, ⟨u, sX, u, u⟩, ⟨some 15, none, some 2, some 9⟩, 30⟩

/-- R21, row 31. -/
def row31 : Pattern :=
  ⟨"FX33", "DEC", ⟨h 0xF, u, h 0x3, h 0x3⟩, ⟨u, sX, u, u⟩, ⟨some 15, none, some 3, some 3⟩, 31⟩

/-- R21, row 32. -/
def row32 : Pattern :=
  ⟨"FX55", "DUMP", ⟨h 0xF, u, h 0x5, h 0x5⟩, ⟨u, sX, u, u⟩, ⟨some 15, none, some 5, some 5⟩, 32⟩

/-- R21, row 33. -/
def row33 : Pattern :=
  ⟨"FX65", "LOAD", ⟨h 0xF, u, h 0x6, h 0x5⟩, ⟨u, sX, u, u⟩, ⟨some 15, none, some 6, some 5⟩, 33⟩

/-- R21: the pattern ROM, 34 rows. -/
def shippedPatternRom : List Pattern :=
  [ row0, row1, row2, row3, row4, row5, row6, row7, row8, row9,
    row10, row11, row12, row13, row14, row15, row16, row17, row18, row19,
    row20, row21, row22, row23, row24, row25, row26, row27, row28, row29,
    row30, row31, row32, row33 ]

/-- R22, R23: shape S0, variable mask `____`. -/
def entryS0 : Entry where
  variableMask := ⟨u, u, u, u⟩
  builder := [⟨.opFrag, 4⟩]
  map :=
    [ (⟨some 0, some 0, some 14, some 0⟩, row0),
      (⟨some 0, some 0, some 14, some 14⟩, row1) ]

/-- R22, R23: shape S1, variable mask `_NNN`. -/
def entryS1 : Entry where
  variableMask := ⟨u, sN, sN, sN⟩
  builder := [⟨.opFrag, 1⟩, ⟨.constant, 3⟩]
  map :=
    [ (⟨some 1, none, none, none⟩, row2),
      (⟨some 2, none, none, none⟩, row3),
      (⟨some 10, none, none, none⟩, row19),
      (⟨some 11, none, none, none⟩, row20) ]

/-- R22, R23: shape S2, variable mask `_XNN`. -/
def entryS2 : Entry where
  variableMask := ⟨u, sX, sN, sN⟩
  builder := [⟨.opFrag, 1⟩, ⟨.register, 1⟩, ⟨.constant, 2⟩]
  map :=
    [ (⟨some 3, none, none, none⟩, row4),
      (⟨some 4, none, none, none⟩, row5),
      (⟨some 6, none, none, none⟩, row7),
      (⟨some 7, none, none, none⟩, row8),
      (⟨some 12, none, none, none⟩, row21) ]

/-- R22, R23: shape S3, variable mask `_XY_`. -/
def entryS3 : Entry where
  variableMask := ⟨u, sX, sY, u⟩
  builder := [⟨.opFrag, 1⟩, ⟨.register, 1⟩, ⟨.register, 1⟩, ⟨.opFrag, 1⟩]
  map :=
    [ (⟨some 5, none, none, some 0⟩, row6),
      (⟨some 8, none, none, some 0⟩, row9),
      (⟨some 8, none, none, some 1⟩, row10),
      (⟨some 8, none, none, some 2⟩, row11),
      (⟨some 8, none, none, some 3⟩, row12),
      (⟨some 8, none, none, some 4⟩, row13),
      (⟨some 8, none, none, some 5⟩, row14),
      (⟨some 8, none, none, some 6⟩, row15),
      (⟨some 8, none, none, some 7⟩, row16),
      (⟨some 8, none, none, some 14⟩, row17),
      (⟨some 9, none, none, some 0⟩, row18) ]

/-- R22, R23: shape S4, variable mask `_XYN`. -/
def entryS4 : Entry where
  variableMask := ⟨u, sX, sY, sN⟩
  builder := [⟨.opFrag, 1⟩, ⟨.register, 1⟩, ⟨.register, 1⟩, ⟨.constant, 1⟩]
  map :=
    [ (⟨some 13, none, none, none⟩, row22) ]

/-- R22, R23: shape S5, variable mask `_X__`. -/
def entryS5 : Entry where
  variableMask := ⟨u, sX, u, u⟩
  builder := [⟨.opFrag, 1⟩, ⟨.register, 1⟩, ⟨.opFrag, 2⟩]
  map :=
    [ (⟨some 14, none, some 9, some 14⟩, row23),
      (⟨some 14, none, some 10, some 1⟩, row24),
      (⟨some 15, none, some 0, some 7⟩, row25),
      (⟨some 15, none, some 0, some 10⟩, row26),
      (⟨some 15, none, some 1, some 5⟩, row27),
      (⟨some 15, none, some 1, some 8⟩, row28),
      (⟨some 15, none, some 1, some 14⟩, row29),
      (⟨some 15, none, some 2, some 9⟩, row30),
      (⟨some 15, none, some 3, some 3⟩, row31),
      (⟨some 15, none, some 5, some 5⟩, row32),
      (⟨some 15, none, some 6, some 5⟩, row33) ]

/-- R22, R23: the dispatch ROM, six entries in order of first appearance. -/
def shippedDispatchRom : Dispatcher := [entryS0, entryS1, entryS2, entryS3, entryS4, entryS5]

end Sys2Proof.Machine
end

