-- ==== Sys2Proof/Machine/State.lean ====
section
/-! DEFINITION. The machine's state, its fault and refusal reasons, and the state after reset.
The spec gives the block two pieces of state, the pattern ROM and the dispatch ROM (10_state.md R20). The
other fields are the model's interface: the word on the input port, the values on the output ports, and
the bytes the environment's reader still has to present (log entries 1 to 4). -/

namespace Sys2Proof.Machine

/-- The fatal conditions of 60_exceptions.md R220, `E1` to `E4`. The block's decode raises none of them
(R125). Each is safe: the operation ends where the spec says it ends. -/
inductive Fault where
  /-- `E1` (R221), raised by `compilePattern` at build time with the offending string; no dispatcher
  exists after it. Safe. No step raises it. -/
  | malformedPattern (pattern : String)
  /-- `E2` (R222), raised by `rawFromBytes` with the length, when it is not 2. Safe. No step raises it,
  since the reader tests the length first (R229). -/
  | malformedRawInstruction (length : Nat)
  /-- `E3` (R223), raised by the stream reader (`step`, `decodeStream`) with the byte offset, when one
  byte is left. Safe. -/
  | incompleteTrailingChunk (offset : Nat)
  /-- `E4` (R224), raised by `checkRuns` at build time; no dispatcher exists after it. Safe. No step
  raises it. -/
  | unsupportedRun (kind : Kind) (len : Nat)
  deriving DecidableEq, Repr

/-- Refusals. Every instruction of the table has its meaning, so nothing raises one. -/
inductive Refusal where
  /-- An instruction without a meaning in this model: none is left. Safe. -/
  | notModelled (mnemonic : String)
  deriving DecidableEq, Repr

/-- The machine's state: the block's two ROMs, and its interface. -/
structure State where
  /-- R20, R21: the pattern ROM. -/
  patternRom : List Pattern
  /-- R20, R22, R23: the dispatch ROM. -/
  dispatchRom : Dispatcher
  /-- Environment (R31, R54, R145): the bytes its reader has still to present, in file order. -/
  stream : List Byte
  /-- Environment (R145): the byte offset in the stream of the next byte to present. -/
  offset : Nat
  /-- R41: the word on `instr_i`; `none` while it is not driven with a defined word (R251). -/
  instr : Option Raw
  /-- R40: the abstract result for the word on `instr_i`; `none` while there is no such word. -/
  result : Option Decoded
  /-- R42, R43: the values on the output ports. -/
  ports : Ports
  /-- The model's own count of instants with an undriven input, for the free value of log entry 3. -/
  undriven : Nat
  deriving DecidableEq, Repr

/-- R47, R250, R251: right after reset the ROMs hold their contents, no word is presented, and the
output ports are unspecified (a free value). -/
def State.reset : State where
  patternRom := shippedPatternRom
  dispatchRom := shippedDispatchRom
  stream := []
  offset := 0
  instr := none
  result := none
  ports := Config.undrivenPorts 0
  undriven := 0

end Sys2Proof.Machine
end

