-- ==== Sys2Proof/Machine/Table.lean ====
section
/-! DEFINITION. The build-time operations of 40_table_compilation.md: pattern compilation (R100 to R103),
builder derivation (R105 to R107), dispatcher compilation (R108 to R110) with last-write-wins
(R109), and the state a table gives the machine (R254, R255). -/

namespace Sys2Proof.Machine

/-- R6, R102: the value of an upper-case hexadecimal digit: the nibble that this digit writes (R140). -/
def hexVal (c : Char) : Option Nibble :=
  ((List.range 16).map (BitVec.ofNat 4)).find? fun v => hexDigit v == c

/-- R6: a symbol character. -/
def symChar (c : Char) : Option SymChar :=
  match c with
  | 'N' => some .N
  | 'X' => some .X
  | 'Y' => some .Y
  | _ => none

/-- R6, R101: a character of the pattern alphabet; the two sets are disjoint. -/
def patChar (c : Char) : Option PatChar :=
  match hexVal c with
  | some v => some (.hex v)
  | none =>
    match symChar c with
    | some y => some (.sym y)
    | none => none

/-- R101: `Validate`, length first and then the characters. -/
def validate (p : String) : Except Fault (Quad PatChar) :=
  match p.toList with
  | [a, b, c, d] =>
    match patChar a, patChar b, patChar c, patChar d with
    | some a, some b, some c, some d => .ok ⟨a, b, c, d⟩
    | _, _, _, _ => .error (.malformedPattern p)
  | _ => .error (.malformedPattern p)

/-- R101, `Split`: the fixed mask's character at a position. -/
def fixedChar : PatChar → MaskChar
  | .hex v => .pat (.hex v)
  | .sym _ => .placeholder

/-- R101, `Split`: the variable mask's character at a position. -/
def variableChar : PatChar → MaskChar
  | .hex _ => .placeholder
  | .sym c => .pat (.sym c)

/-- R102, `FixedTuple`: the tuple's element at a position of the fixed mask. -/
def fixedNibble : MaskChar → Option Nibble
  | .pat (.hex v) => some v
  | _ => none

/-- R100: `CompilePattern`; `index` is the row's position in its table (R103). -/
def compilePattern (hexPattern mnemonic : String) (index : Nat) : Except Fault Pattern :=
  match validate hexPattern with
  | .error f => .error f
  | .ok q =>
    .ok
      { hexPattern := hexPattern
        mnemonic := mnemonic
        fixedMask := q.map fixedChar
        variableMask := q.map variableChar
        fixedTuple := (q.map fixedChar).map fixedNibble
        index := index }

/-- R21: `mask16`, the fixed positions of a pattern as a 16-bit mask. -/
def Pattern.mask16 (p : Pattern) : Word :=
  let m : Option Nibble → Nibble := fun k => if k.isSome then 0xF else 0
  m p.fixedTuple.n0 ++ m p.fixedTuple.n1 ++ m p.fixedTuple.n2 ++ m p.fixedTuple.n3

/-- R21: `match16`, the fixed digits of a pattern as a 16-bit value. -/
def Pattern.match16 (p : Pattern) : Word :=
  let m : Option Nibble → Nibble := fun k => k.getD 0
  m p.fixedTuple.n0 ++ m p.fixedTuple.n1 ++ m p.fixedTuple.n2 ++ m p.fixedTuple.n3

/-- R105: `Runs`, the maximal runs of equal adjacent characters, left to right. Written as a recursion on
the rest of the mask: a character joins the run after it when it is the same character. -/
def runs : List MaskChar → List CharRun
  | [] => []
  | c :: cs =>
    match runs cs with
    | [] => [⟨c, 1⟩]
    | r :: rs => if r.char = c then ⟨c, r.len + 1⟩ :: rs else ⟨c, 1⟩ :: r :: rs

/-- R106: `KindOf`. -/
def kindOf : MaskChar → Kind
  | .pat (.sym .N) => .constant
  | .pat (.sym .X) => .register
  | .pat (.sym .Y) => .register
  | _ => .opFrag

/-- R106: `DeriveBuilder`. -/
def deriveBuilder (variableMask : Quad MaskChar) : Builder :=
  (runs variableMask.toList).map fun r => ⟨kindOf r.char, r.len⟩

/-- R107: does the spec give the run a meaning? -/
def runSupported (r : Run) : Bool :=
  match r.kind with
  | .register => r.len == Config.maxRegisterRun
  | .constant => r.len ≤ Config.maxConstantRun
  | .opFrag => true

/-- R107: `CheckRuns`, the first unsupported run is the one reported. -/
def checkRuns : Builder → Except Fault Unit
  | [] => .ok ()
  | r :: rs => if runSupported r then checkRuns rs else .error (.unsupportedRun r.kind r.len)

/-- R109, R110: `e.map[key] <- p`, the last write wins; a key keeps its place in the list (log entry 6). -/
def mapInsert : List (Key × Pattern) → Key → Pattern → List (Key × Pattern)
  | [], k, p => [(k, p)]
  | kp :: m, k, p => if kp.1 = k then (k, p) :: m else kp :: mapInsert m k p

/-- R110: register a compiled pattern in the entry of its shape, or in a new last entry. -/
def registerPattern : Dispatcher → Pattern → Except Fault Dispatcher
  | [], p =>
    match checkRuns (deriveBuilder p.variableMask) with
    | .error f => .error f
    | .ok _ => .ok [⟨p.variableMask, deriveBuilder p.variableMask, [(p.fixedTuple, p)]⟩]
  | e :: d, p =>
    if e.variableMask = p.variableMask then
      .ok ({ e with map := mapInsert e.map p.fixedTuple p } :: d)
    else
      match registerPattern d p with
      | .error f => .error f
      | .ok d' => .ok (e :: d')

/-- R110: the loop of `CompileDispatcher`, from row number `idx` on. -/
def compileFrom : Nat → Dispatcher → Table → Except Fault Dispatcher
  | _, d, [] => .ok d
  | idx, d, row :: rest =>
    match compilePattern row.1 row.2 idx with
    | .error f => .error f
    | .ok p =>
      match registerPattern d p with
      | .error f => .error f
      | .ok d' => compileFrom (idx + 1) d' rest

/-- R110: `CompileDispatcher`. -/
def compileDispatcher (table : Table) : Except Fault Dispatcher := compileFrom 0 [] table

/-- R21, R100: the rows of a table compiled one by one, from row number `idx` on; the pattern ROM. -/
def compilePatterns : Nat → Table → Except Fault (List Pattern)
  | _, [] => .ok []
  | idx, row :: rest =>
    match compilePattern row.1 row.2 idx with
    | .error f => .error f
    | .ok p =>
      match compilePatterns (idx + 1) rest with
      | .error f => .error f
      | .ok ps => .ok (p :: ps)

/-- R254, R255: the machine a table builds; the table is compiled completely before any decode, and a
failing compilation leaves no machine. -/
def powerOn (table : Table) : Except Fault State :=
  match compileDispatcher table with
  | .error f => .error f
  | .ok d =>
    match compilePatterns 0 table with
    | .error f => .error f
    | .ok ps => .ok { State.reset with patternRom := ps, dispatchRom := d }

/-- R109: two rows collide when they share both shape and fixed-nibble tuple. -/
def Pattern.collides (p q : Pattern) : Bool :=
  p.variableMask == q.variableMask && p.fixedTuple == q.fixedTuple

/-- R109, D7: the collisions `COLLISION_LINT` would report, later row by later row. -/
def collisions : List Pattern → List Collision
  | [] => []
  | p :: ps => (ps.filter p.collides).map (fun q => ⟨p.index, q.index⟩) ++ collisions ps

/-- R109, D7: the build with its warnings; the lint changes no table content. -/
def compileWithLint (lint : Bool) (table : Table) : Except Fault (Dispatcher × List Collision) :=
  match compileDispatcher table with
  | .error f => .error f
  | .ok d =>
    match compilePatterns 0 table with
    | .error f => .error f
    | .ok ps => .ok (d, if lint then collisions ps else [])

end Sys2Proof.Machine
end

