-- ==== Sys2Proof/Machine/Ops.lean ====
section
/-! DEFINITION. The run-time operations: construction of a raw instruction (20_memory.md R53), projection,
lookup and decode (41_decode_resolution.md R120 to R125), symbol construction (R130), the port
encoding (10_state.md R42, R43), and the updates of the state they make. There is no trap entry and no
return from one (60_exceptions.md R230, R232), so no such operation stands here. -/

namespace Sys2Proof.Machine

/-- What a meaning or a step answers. -/
abbrev StepResult := Host.Outcome State Fault Refusal

/-- R53: `RawFromBytes`. -/
def rawFromBytes : List Byte → Except Fault Raw
  | [b0, b1] => .ok ⟨b0, b1⟩
  | bs => .error (.malformedRawInstruction bs.length)

/-- The kind of the run of a builder that covers position `i`. -/
def kindAt : Builder → Nat → Option Kind
  | [], _ => none
  | r :: rs, i => if i < r.len then some r.kind else kindAt rs (i - r.len)

/-- R121: one position of the projection: kept under an opcode fragment, `None` under an operand. -/
def projectAt (b : Builder) (i : Nat) (n : Nibble) : Option Nibble :=
  if kindAt b i = some .opFrag then some n else none

/-- R121: `Project`. -/
def project (e : Entry) (ns : Quad Nibble) : Key :=
  ⟨projectAt e.builder 0 ns.n0, projectAt e.builder 1 ns.n1,
    projectAt e.builder 2 ns.n2, projectAt e.builder 3 ns.n3⟩

/-- R122, R13: `lookup`, exact equality of keys; a miss is an ordinary value. -/
def lookup : List (Key × Pattern) → Key → Option Pattern
  | [], _ => none
  | kp :: m, k => if kp.1 = k then some kp.2 else lookup m k

/-- R130: `Build`, consuming nibbles left to right. -/
def build : Builder → List Nibble → List Symbol
  | [], _ => []
  | r :: rs, ns => ⟨r.kind, ns.take r.len⟩ :: build rs (ns.drop r.len)

/-- R120: `Decode(D, raw)`. The entries are tried in order; the first hit wins (R123); when none hits
the result is `Unknown` with one symbol over all four nibbles (R124). -/
def decode : Dispatcher → Raw → Decoded
  | [], raw => .unknown raw [⟨.opFrag, (asNibbles raw).toList⟩]
  | e :: d, raw =>
    match lookup e.map (project e (asNibbles raw)) with
    | some p => .known raw p (build e.builder (asNibbles raw).toList)
    | none => decode d raw

/-- R42, R123: the position of the entry that hits. -/
def shapeHit : Dispatcher → Raw → Option Nat
  | [], _ => none
  | e :: d, raw =>
    match lookup e.map (project e (asNibbles raw)) with
    | some _ => some 0
    | none => (shapeHit d raw).map (· + 1)

/-- R138: the symbols of a result. -/
def Decoded.symbols : Decoded → List Symbol
  | .known _ _ ys => ys
  | .unknown _ ys => ys

/-- R138: the raw instruction of a result. -/
def Decoded.raw : Decoded → Raw
  | .known r _ _ => r
  | .unknown r _ => r

/-- R138, R42: the mnemonic of a result. -/
def Decoded.mnemonic : Decoded → String
  | .known _ p _ => p.mnemonic
  | .unknown _ _ => Config.unknownMnemonic

/-- R42, D4: `opcode_o`. -/
def opcodeO : Decoded → BitVec 6
  | .known _ p _ => BitVec.ofNat 6 p.index
  | .unknown _ _ => Config.unknownOpcode

/-- R43: the code of a kind in `sym_kind_o`. -/
def kindCode : Kind → BitVec 2
  | .opFrag => 0
  | .register => 1
  | .constant => 2

/-- R43, D24: the empty slot. -/
def emptySlot : Slot := ⟨3, 0, 0, 0⟩

/-- R43: the slots of symbols that start at nibble position `pos`. -/
def slotsFrom : Nat → List Symbol → List Slot
  | _, [] => []
  | pos, y :: ys =>
    ⟨kindCode y.kind, BitVec.ofNat 2 pos, BitVec.ofNat 3 y.nibbleCount, BitVec.ofNat 16 y.value⟩ ::
      slotsFrom (pos + y.nibbleCount) ys

/-- R43: slot `k` of a result. -/
def slotAt (ys : List Symbol) (k : Nat) : Slot := (slotsFrom 0 ys).getD k emptySlot

/-- R42, R43: the ports for a result and the position of the shape that hit. -/
def encodePorts (shape : Option Nat) (d : Decoded) : Ports where
  hitO := hitO d
  unknownO := unknownO d
  diagO := diagO d
  shapeO := match shape with
    | some k => BitVec.ofNat 3 k
    | none => Config.unknownShape
  opcodeO := opcodeO d
  nsymO := BitVec.ofNat 3 d.symbols.length
  slot0 := slotAt d.symbols 0
  slot1 := slotAt d.symbols 1
  slot2 := slotAt d.symbols 2
  slot3 := slotAt d.symbols 3

/-- R46: the ports as a function of the ROM and the word on `instr_i`. -/
def portsOf (d : Dispatcher) (raw : Raw) : Ports := encodePorts (shapeHit d raw) (decode d raw)

/-- R40, R56: a word is presented on `instr_i`, and the outputs become those of its decode under the
dispatch ROM. This is all a decode does; the ROMs and the environment's reader are untouched. -/
def State.present (raw : Raw) (s : State) : State :=
  { s with
    instr := some raw
    result := some (decode s.dispatchRom raw)
    ports := portsOf s.dispatchRom raw }

/-- R47, R251, V1: no defined word is presented; there is no result and the ports are unspecified. -/
def State.undrive (s : State) : State :=
  { s with
    instr := none
    result := none
    ports := Config.undrivenPorts (s.undriven + 1)
    undriven := s.undriven + 1 }

/-- R54, R145: the reader goes past one two-byte chunk. -/
def State.advance (rest : List Byte) (s : State) : State :=
  { s with stream := rest, offset := s.offset + 2 }

end Sys2Proof.Machine
end

