-- ==== Sys2Proof/Machine/ShapeNnn.lean ====
section
/-! DEFINITION. The meanings of the patterns with a 12-bit constant (42_shape_none_and_nnn.md, R159). The block recognises the word
and delivers its row and its symbols; it executes nothing (41_decode_resolution.md R137, R141 to R144).
Each meaning therefore presents the instruction's word, assembled from the rule's own Encoding line, and
the outputs become those of the decode under the dispatch ROM (R120). -/

namespace Sys2Proof.Machine

/-- R152: `GOTO`, pattern `1NNN`, row 2; `(w AND 0xF000) = 0x1000`. -/
def execGoto (nnn : BitVec 12) (s : State) : StepResult :=
  .next (s.present (rawS1 0x1 nnn))

/-- R153: `CALL`, pattern `2NNN`, row 3; `(w AND 0xF000) = 0x2000`. -/
def execCall (nnn : BitVec 12) (s : State) : StepResult :=
  .next (s.present (rawS1 0x2 nnn))

/-- R154: `SETI`, pattern `ANNN`, row 19; `(w AND 0xF000) = 0xA000`. -/
def execSeti (nnn : BitVec 12) (s : State) : StepResult :=
  .next (s.present (rawS1 0xA nnn))

/-- R155: `JUMPR`, pattern `BNNN`, row 20; `(w AND 0xF000) = 0xB000`. -/
def execJumpr (nnn : BitVec 12) (s : State) : StepResult :=
  .next (s.present (rawS1 0xB nnn))

end Sys2Proof.Machine
end

