-- ==== Sys2Proof/Machine/ShapeNone.lean ====
section
/-! DEFINITION. The meanings of the patterns without operand (42_shape_none_and_nnn.md, R158). The block recognises the word
and delivers its row and its symbols; it executes nothing (41_decode_resolution.md R137, R141 to R144).
Each meaning therefore presents the instruction's word, assembled from the rule's own Encoding line, and
the outputs become those of the decode under the dispatch ROM (R120). -/

namespace Sys2Proof.Machine

/-- R150: `CLEAR`, pattern `00E0`, row 0; `(w AND 0xFFFF) = 0x00E0`. -/
def execClear (s : State) : StepResult :=
  .next (s.present (rawS0 0x0 0x0 0xE 0x0))

/-- R151: `RETURN`, pattern `00EE`, row 1; `(w AND 0xFFFF) = 0x00EE`. -/
def execRet (s : State) : StepResult :=
  .next (s.present (rawS0 0x0 0x0 0xE 0xE))

end Sys2Proof.Machine
end

