-- ==== Sys2Proof/Machine/ShapeX.lean ====
section
/-! DEFINITION. The meanings of the patterns with one register and a fixed low byte (45_shape_x.md, R208). The block recognises the word
and delivers its row and its symbols; it executes nothing (41_decode_resolution.md R137, R141 to R144).
Each meaning therefore presents the instruction's word, assembled from the rule's own Encoding line, and
the outputs become those of the decode under the dispatch ROM (R120). -/

namespace Sys2Proof.Machine

/-- R190: `SKPR`, pattern `EX9E`, row 23; `(w AND 0xF0FF) = 0xE09E`. -/
def execSkpr (x : Nibble) (s : State) : StepResult :=
  .next (s.present (rawS5 0xE x 0x9 0xE))

/-- R191: `SKNP`, pattern `EXA1`, row 24; `(w AND 0xF0FF) = 0xE0A1`. -/
def execSknp (x : Nibble) (s : State) : StepResult :=
  .next (s.present (rawS5 0xE x 0xA 0x1))

/-- R192: `RDEL`, pattern `FX07`, row 25; `(w AND 0xF0FF) = 0xF007`. -/
def execRdel (x : Nibble) (s : State) : StepResult :=
  .next (s.present (rawS5 0xF x 0x0 0x7))

/-- R193: `KEY`, pattern `FX0A`, row 26; `(w AND 0xF0FF) = 0xF00A`. -/
def execKey (x : Nibble) (s : State) : StepResult :=
  .next (s.present (rawS5 0xF x 0x0 0xA))

/-- R194: `TDEL`, pattern `FX15`, row 27; `(w AND 0xF0FF) = 0xF015`. -/
def execTdel (x : Nibble) (s : State) : StepResult :=
  .next (s.present (rawS5 0xF x 0x1 0x5))

/-- R195: `TSND`, pattern `FX18`, row 28; `(w AND 0xF0FF) = 0xF018`. -/
def execTsnd (x : Nibble) (s : State) : StepResult :=
  .next (s.present (rawS5 0xF x 0x1 0x8))

/-- R196: `IADD`, pattern `FX1E`, row 29; `(w AND 0xF0FF) = 0xF01E`. -/
def execIadd (x : Nibble) (s : State) : StepResult :=
  .next (s.present (rawS5 0xF x 0x1 0xE))

/-- R197: `CHAR`, pattern `FX29`, row 30; `(w AND 0xF0FF) = 0xF029`. -/
def execChar (x : Nibble) (s : State) : StepResult :=
  .next (s.present (rawS5 0xF x 0x2 0x9))

/-- R198: `DEC`, pattern `FX33`, row 31; `(w AND 0xF0FF) = 0xF033`. -/
def execDec (x : Nibble) (s : State) : StepResult :=
  .next (s.present (rawS5 0xF x 0x3 0x3))

/-- R199: `DUMP`, pattern `FX55`, row 32; `(w AND 0xF0FF) = 0xF055`. -/
def execDump (x : Nibble) (s : State) : StepResult :=
  .next (s.present (rawS5 0xF x 0x5 0x5))

/-- R200: `LOAD`, pattern `FX65`, row 33; `(w AND 0xF0FF) = 0xF065`. -/
def execLoad (x : Nibble) (s : State) : StepResult :=
  .next (s.present (rawS5 0xF x 0x6 0x5))

end Sys2Proof.Machine
end

