-- ==== Sys2Proof/Machine/ShapeXnn.lean ====
section
/-! DEFINITION. The meanings of the patterns with one register and an 8-bit constant (43_shape_xnn.md, R168). The block recognises the word
and delivers its row and its symbols; it executes nothing (41_decode_resolution.md R137, R141 to R144).
Each meaning therefore presents the instruction's word, assembled from the rule's own Encoding line, and
the outputs become those of the decode under the dispatch ROM (R120). -/

namespace Sys2Proof.Machine

/-- R160: `SIEQ`, pattern `3XNN`, row 4; `(w AND 0xF000) = 0x3000`. -/
def execSieq (x : Nibble) (nn : BitVec 8) (s : State) : StepResult :=
  .next (s.present (rawS2 0x3 x nn))

/-- R161: `SINE`, pattern `4XNN`, row 5; `(w AND 0xF000) = 0x4000`. -/
def execSine (x : Nibble) (nn : BitVec 8) (s : State) : StepResult :=
  .next (s.present (rawS2 0x4 x nn))

/-- R162: `SETR`, pattern `6XNN`, row 7; `(w AND 0xF000) = 0x6000`. -/
def execSetr (x : Nibble) (nn : BitVec 8) (s : State) : StepResult :=
  .next (s.present (rawS2 0x6 x nn))

/-- R163: `ADDI`, pattern `7XNN`, row 8; `(w AND 0xF000) = 0x7000`. -/
def execAddi (x : Nibble) (nn : BitVec 8) (s : State) : StepResult :=
  .next (s.present (rawS2 0x7 x nn))

/-- R164: `RAND`, pattern `CXNN`, row 21; `(w AND 0xF000) = 0xC000`. -/
def execRand (x : Nibble) (nn : BitVec 8) (s : State) : StepResult :=
  .next (s.present (rawS2 0xC x nn))

end Sys2Proof.Machine
end

