-- ==== Sys2Proof/Machine/ShapeXy.lean ====
section
/-! DEFINITION. The meanings of the patterns with two registers and a fixed last nibble (44_shape_xy.md, R188). The block recognises the word
and delivers its row and its symbols; it executes nothing (41_decode_resolution.md R137, R141 to R144).
Each meaning therefore presents the instruction's word, assembled from the rule's own Encoding line, and
the outputs become those of the decode under the dispatch ROM (R120). -/

namespace Sys2Proof.Machine

/-- R170: `SREQ`, pattern `5XY0`, row 6; `(w AND 0xF00F) = 0x5000`. -/
def execSreq (x y : Nibble) (s : State) : StepResult :=
  .next (s.present (rawS3 0x5 x y 0x0))

/-- R171: `COPY`, pattern `8XY0`, row 9; `(w AND 0xF00F) = 0x8000`. -/
def execCopy (x y : Nibble) (s : State) : StepResult :=
  .next (s.present (rawS3 0x8 x y 0x0))

/-- R172: `OR`, pattern `8XY1`, row 10; `(w AND 0xF00F) = 0x8001`. -/
def execOr (x y : Nibble) (s : State) : StepResult :=
  .next (s.present (rawS3 0x8 x y 0x1))

/-- R173: `AND`, pattern `8XY2`, row 11; `(w AND 0xF00F) = 0x8002`. -/
def execAnd (x y : Nibble) (s : State) : StepResult :=
  .next (s.present (rawS3 0x8 x y 0x2))

/-- R174: `XOR`, pattern `8XY3`, row 12; `(w AND 0xF00F) = 0x8003`. -/
def execXor (x y : Nibble) (s : State) : StepResult :=
  .next (s.present (rawS3 0x8 x y 0x3))

/-- R175: `ADD`, pattern `8XY4`, row 13; `(w AND 0xF00F) = 0x8004`. -/
def execAdd (x y : Nibble) (s : State) : StepResult :=
  .next (s.present (rawS3 0x8 x y 0x4))

/-- R176: `SUB`, pattern `8XY5`, row 14; `(w AND 0xF00F) = 0x8005`. -/
def execSub (x y : Nibble) (s : State) : StepResult :=
  .next (s.present (rawS3 0x8 x y 0x5))

/-- R177: `SHIFTR`, pattern `8XY6`, row 15; `(w AND 0xF00F) = 0x8006`. -/
def execShiftr (x y : Nibble) (s : State) : StepResult :=
  .next (s.present (rawS3 0x8 x y 0x6))

/-- R178: `SUB-`, pattern `8XY7`, row 16; `(w AND 0xF00F) = 0x8007`. -/
def execSubn (x y : Nibble) (s : State) : StepResult :=
  .next (s.present (rawS3 0x8 x y 0x7))

/-- R179: `SHIFTL`, pattern `8XYE`, row 17; `(w AND 0xF00F) = 0x800E`. -/
def execShiftl (x y : Nibble) (s : State) : StepResult :=
  .next (s.present (rawS3 0x8 x y 0xE))

/-- R180: `SRNE`, pattern `9XY0`, row 18; `(w AND 0xF00F) = 0x9000`. -/
def execSrne (x y : Nibble) (s : State) : StepResult :=
  .next (s.present (rawS3 0x9 x y 0x0))

end Sys2Proof.Machine
end

