-- ==== Sys2Proof/Machine/ShapeXyn.lean ====
section
/-! DEFINITION. The meanings of the the pattern with two registers and a 4-bit constant (44_shape_xy.md, R189). The block recognises the word
and delivers its row and its symbols; it executes nothing (41_decode_resolution.md R137, R141 to R144).
Each meaning therefore presents the instruction's word, assembled from the rule's own Encoding line, and
the outputs become those of the decode under the dispatch ROM (R120). -/

namespace Sys2Proof.Machine

/-- R181: `DRAW`, pattern `DXYN`, row 22; `(w AND 0xF000) = 0xD000`. -/
def execDraw (x y n : Nibble) (s : State) : StepResult :=
  .next (s.present (rawS4 0xD x y n))

end Sys2Proof.Machine
end

