-- ==== Sys2Proof/Machine/Unknown.lean ====
section
/-! DEFINITION. The meaning of the unknown fallback (46_unknown.md R210 to R214): never an error, one opcode
fragment over the whole word, and the diagnostic. -/

namespace Sys2Proof.Machine

/-- R210: `UNKNOWN`, any word no row matches. -/
def execUnknown (w : Word) (s : State) : StepResult :=
  .next (s.present (Raw.ofWord w))

end Sys2Proof.Machine
end

