-- ==== Sys2Proof/Machine/Dispatch.lean ====
section
/-! DEFINITION. The dispatch from an instruction to its meaning, one arm for each constructor of Instr, in
the opcode table's order. -/

namespace Sys2Proof.Machine

def exec (i : Instr) (s : State) : Host.Outcome State Fault Refusal :=
  match i with
  | .clear => Sys2Proof.Machine.execClear s
  | .ret => Sys2Proof.Machine.execRet s
  | .goto nnn => Sys2Proof.Machine.execGoto nnn s
  | .call nnn => Sys2Proof.Machine.execCall nnn s
  | .sieq x nn => Sys2Proof.Machine.execSieq x nn s
  | .sine x nn => Sys2Proof.Machine.execSine x nn s
  | .sreq x y => Sys2Proof.Machine.execSreq x y s
  | .setr x nn => Sys2Proof.Machine.execSetr x nn s
  | .addi x nn => Sys2Proof.Machine.execAddi x nn s
  | .copy x y => Sys2Proof.Machine.execCopy x y s
  | .or x y => Sys2Proof.Machine.execOr x y s
  | .and x y => Sys2Proof.Machine.execAnd x y s
  | .xor x y => Sys2Proof.Machine.execXor x y s
  | .add x y => Sys2Proof.Machine.execAdd x y s
  | .sub x y => Sys2Proof.Machine.execSub x y s
  | .shiftr x y => Sys2Proof.Machine.execShiftr x y s
  | .subn x y => Sys2Proof.Machine.execSubn x y s
  | .shiftl x y => Sys2Proof.Machine.execShiftl x y s
  | .srne x y => Sys2Proof.Machine.execSrne x y s
  | .seti nnn => Sys2Proof.Machine.execSeti nnn s
  | .jumpr nnn => Sys2Proof.Machine.execJumpr nnn s
  | .rand x nn => Sys2Proof.Machine.execRand x nn s
  | .draw x y n => Sys2Proof.Machine.execDraw x y n s
  | .skpr x => Sys2Proof.Machine.execSkpr x s
  | .sknp x => Sys2Proof.Machine.execSknp x s
  | .rdel x => Sys2Proof.Machine.execRdel x s
  | .key x => Sys2Proof.Machine.execKey x s
  | .tdel x => Sys2Proof.Machine.execTdel x s
  | .tsnd x => Sys2Proof.Machine.execTsnd x s
  | .iadd x => Sys2Proof.Machine.execIadd x s
  | .char x => Sys2Proof.Machine.execChar x s
  | .dec x => Sys2Proof.Machine.execDec x s
  | .dump x => Sys2Proof.Machine.execDump x s
  | .load x => Sys2Proof.Machine.execLoad x s
  | .unknown w => Sys2Proof.Machine.execUnknown w s

end Sys2Proof.Machine
end

