-- ==== Sys2Proof/WellFormed.lean ====
section
/-! DEFINITION. Which terms of `Instr` stand for an instruction word. Every operand field has exactly its
encoded width (Syntax.lean), so the one check left is R210's: the fallback carries a word that no
pattern row matches. -/

namespace Sys2Proof

/-- R210, R84: a well-formed fallback holds a word no row of the table matches; every other term is
well-formed. -/
def Instr.wellFormed : Instr → Bool
  | .unknown w => !(Machine.encTable.any fun r => r.hits w)
  | _ => true

/-- `Instr.wellFormed` as a proposition. -/
abbrev Instr.WellFormed (i : Instr) : Prop := i.wellFormed = true

end Sys2Proof
end

