-- ==== Sys2Proof/Decode.lean ====
section
/-! DEFINITION. From bytes to instructions and back, from the encoding table of 30_encoding.md (R70 to
R90). This is the model's reader of instruction words as syntax; the block's own decode, over the
dispatch ROM that State holds, is `Machine.decode` in Machine/Ops.lean. -/

namespace Sys2Proof

/-- R84, R85, R87: the instruction a word stands for; every word stands for one. -/
def decodeWord (w : Word) : Instr :=
  match Machine.encTable.find? fun r => r.hits w with
  | some r => r.instr w
  | none => .unknown w

/-- Why a byte list holds no instruction at its head (R53, R70: an instruction is exactly two bytes). -/
inductive DecodeError where
  /-- No byte is left. -/
  | noInstruction
  /-- One byte is left, fewer than `SIZE` (R54). -/
  | danglingByte (b : Byte)
  deriving DecidableEq, Repr

/-- The instruction at the head of a byte list and the bytes after it; big-endian (R50). -/
def decodeBytes : List Byte → Except DecodeError (Instr × List Byte)
  | [] => .error .noInstruction
  | [b] => .error (.danglingByte b)
  | b0 :: b1 :: rest => .ok (decodeWord (Raw.word ⟨b0, b1⟩), rest)

/-- R84, R85 (`encoding`): the word of an instruction, bit 15 first. -/
def encodeWord : Instr → Word
  | .clear => 0x00E0
  | .ret => 0x00EE
  | .goto nnn => 0x1#4 ++ nnn
  | .call nnn => 0x2#4 ++ nnn
  | .sieq x nn => 0x3#4 ++ x ++ nn
  | .sine x nn => 0x4#4 ++ x ++ nn
  | .sreq x y => 0x5#4 ++ x ++ y ++ 0x0#4
  | .setr x nn => 0x6#4 ++ x ++ nn
  | .addi x nn => 0x7#4 ++ x ++ nn
  | .copy x y => 0x8#4 ++ x ++ y ++ 0x0#4
  | .or x y => 0x8#4 ++ x ++ y ++ 0x1#4
  | .and x y => 0x8#4 ++ x ++ y ++ 0x2#4
  | .xor x y => 0x8#4 ++ x ++ y ++ 0x3#4
  | .add x y => 0x8#4 ++ x ++ y ++ 0x4#4
  | .sub x y => 0x8#4 ++ x ++ y ++ 0x5#4
  | .shiftr x y => 0x8#4 ++ x ++ y ++ 0x6#4
  | .subn x y => 0x8#4 ++ x ++ y ++ 0x7#4
  | .shiftl x y => 0x8#4 ++ x ++ y ++ 0xE#4
  | .srne x y => 0x9#4 ++ x ++ y ++ 0x0#4
  | .seti nnn => 0xA#4 ++ nnn
  | .jumpr nnn => 0xB#4 ++ nnn
  | .rand x nn => 0xC#4 ++ x ++ nn
  | .draw x y n => 0xD#4 ++ x ++ y ++ n
  | .skpr x => 0xE#4 ++ x ++ 0x9E#8
  | .sknp x => 0xE#4 ++ x ++ 0xA1#8
  | .rdel x => 0xF#4 ++ x ++ 0x07#8
  | .key x => 0xF#4 ++ x ++ 0x0A#8
  | .tdel x => 0xF#4 ++ x ++ 0x15#8
  | .tsnd x => 0xF#4 ++ x ++ 0x18#8
  | .iadd x => 0xF#4 ++ x ++ 0x1E#8
  | .char x => 0xF#4 ++ x ++ 0x29#8
  | .dec x => 0xF#4 ++ x ++ 0x33#8
  | .dump x => 0xF#4 ++ x ++ 0x55#8
  | .load x => 0xF#4 ++ x ++ 0x65#8
  | .unknown w => w

/-- The two bytes of an instruction in file order (R50). -/
def encode (i : Instr) : List Byte := (Raw.ofWord (encodeWord i)).bytes

/-- The instruction the decoder reads from an instruction of `nbits` bits `w`, bit 0 the least significant
bit of the one word. There is one instruction length, 16 bits (R70): no other `nbits` holds one. -/
def decodeTableWord (nbits w : Nat) : Option Instr :=
  if nbits = 16 then
    match decodeBytes (Raw.ofWord (BitVec.ofNat 16 w)).bytes with
    | .ok (i, _) => some i
    | .error _ => none
  else none

end Sys2Proof
end

