-- ==== Sys2Proof/Machine/Fetch.lean ====
section
/-! DEFINITION. How the environment's reader presents the next word (20_memory.md R54, R61; 10_state.md R31;
41_decode_resolution.md R145). The block itself does not fetch and has no program counter. -/

namespace Sys2Proof.Machine

/-- What the reader finds at the head of the stream. -/
inductive Fetch where
  /-- Nothing is left to present. -/
  | endOfStream
  /-- One byte is left, at this byte offset (R223). -/
  | dangling (offset : Nat)
  /-- A word, and the state with the reader past it. -/
  | word (raw : Raw) (s : State)
  deriving DecidableEq, Repr

/-- R54, R145: cut the next chunk off the stream. -/
def fetch (s : State) : Fetch :=
  match s.stream with
  | [] => .endOfStream
  | [_] => .dangling s.offset
  | b0 :: b1 :: rest => .word ⟨b0, b1⟩ (s.advance rest)

/-- The state in which the next chunk the reader presents is the word `w`, in file order (R50, R256). -/
def State.withStreamWord (w : Word) (s : State) : State :=
  { s with stream := (Raw.ofWord w).bytes ++ s.stream.drop 2 }

end Sys2Proof.Machine
end

