-- ==== Sys2Proof/Machine/Step.lean ====
section
/-! DEFINITION. One step: the environment's reader presents the next word and the block decodes it
(41_decode_resolution.md R120, R145). -/

namespace Sys2Proof.Machine

/-- R145: a whole chunk is presented and the instruction it holds has its meaning; a dangling byte is
`E3` (R223); when nothing is left the input is undriven (log entry 4). -/
def step (s : State) : Host.Outcome State Fault Refusal :=
  match fetch s with
  | .endOfStream => .next s.undrive
  | .dangling offset => .fault (.incompleteTrailingChunk offset)
  | .word raw s' => exec (decodeWord raw.word) s'

/-- `s` with the instruction of `nbits` bits `w` as the next word the reader presents. Every
instruction has 16 bits (R70), so no other `nbits` stands for one. -/
def State.withFetchWord (s : State) (nbits w : Nat) : State :=
  s.withStreamWord (BitVec.ofNat 16 (w % 2 ^ nbits))

end Sys2Proof.Machine
end

