-- ==== Sys2Proof/Machine/Gates.lean ====
section
/-! DEFINITION. The lookup written as gates (10_state.md R44, R45): match lines over the word's bits, hit
lines, and the mux array's fixed wiring. Where the two differ the lookup of 41_decode_resolution.md
governs (R45); that they do not differ is a statement of its own. -/

namespace Sys2Proof.Machine

/-- R45: the match line of a row. -/
def matchLine (w : Word) (p : Pattern) : Bool := w &&& p.mask16 == p.match16

/-- R45: the hit line of a shape, over the rows its map holds. -/
def hitLine (w : Word) (e : Entry) : Bool := e.map.any fun kp => matchLine w kp.2

/-- R44: the wire of a symbol slot: its kind, its first nibble position and its length. -/
structure Wire where
  kind : Kind
  pos : Nat
  len : Nat
  deriving DecidableEq, Repr

/-- R44: a builder's wiring, which does not depend on the word. -/
def wiring : Nat → Builder → List Wire
  | _, [] => []
  | pos, r :: rs => ⟨r.kind, pos, r.len⟩ :: wiring (pos + r.len) rs

/-- R44: the wiring selected when no shape hits. -/
def unknownWiring : List Wire := [⟨.opFrag, 0, 4⟩]

/-- R43, R44: the slot a wire drives from the word: nibbles `pos` to `pos + len - 1`, zero-extended. -/
def wireSlot (w : Word) (v : Wire) : Slot :=
  ⟨kindCode v.kind, BitVec.ofNat 2 v.pos, BitVec.ofNat 3 v.len,
    (w >>> (4 * (4 - (v.pos + v.len)))) &&& BitVec.ofNat 16 (16 ^ v.len - 1)⟩

/-- R44: slot `k` under a wiring. -/
def muxSlot (w : Word) (wires : List Wire) (k : Nat) : Slot :=
  match wires[k]? with
  | some v => wireSlot w v
  | none => emptySlot

/-- R45: the row whose match line is 1 within a shape. -/
def matchedRow (w : Word) (e : Entry) : Option Pattern :=
  (e.map.find? fun kp => matchLine w kp.2).map Prod.snd

/-- R45: the lowest-numbered shape, counted from `k`, whose hit line is 1, with its position. -/
def firstHit (w : Word) : Nat → Dispatcher → Option (Nat × Entry)
  | _, [] => none
  | k, e :: d => if hitLine w e then some (k, e) else firstHit w (k + 1) d

/-- R44, R45: all output ports as gates over the word. -/
def gatePorts (d : Dispatcher) (w : Word) : Ports :=
  let hit := d.any (hitLine w)
  let wires := match firstHit w 0 d with
    | some (_, e) => wiring 0 e.builder
    | none => unknownWiring
  { hitO := hit
    unknownO := !hit
    diagO := !hit
    shapeO := match firstHit w 0 d with
      | some (k, _) => BitVec.ofNat 3 k
      | none => Config.unknownShape
    opcodeO := match firstHit w 0 d with
      | some (_, e) =>
        match matchedRow w e with
        | some p => BitVec.ofNat 6 p.index
        | none => Config.unknownOpcode
      | none => Config.unknownOpcode
    nsymO := BitVec.ofNat 3 wires.length
    slot0 := muxSlot w wires 0
    slot1 := muxSlot w wires 1
    slot2 := muxSlot w wires 2
    slot3 := muxSlot w wires 3 }

end Sys2Proof.Machine
end

