-- ==== Sys2Proof/Machine/Render.lean ====
section
/-! DEFINITION. The reference text renderer beside the block (30_encoding.md R91 to R95,
41_decode_resolution.md R140; 90_conflicts.md C2, C6). -/

namespace Sys2Proof.Machine

/-- R140: `RenderSymbol`; a register as `V` and one digit, the other kinds as `nibbles_to_hex`. -/
def renderSymbol (y : Symbol) : String :=
  match y.kind with
  | .register => Config.regPrefix ++ String.ofList [hexDigit (y.nibbles.headD 0)]
  | .constant => nibblesToHex y.nibbles
  | .opFrag => nibblesToHex y.nibbles

/-- R140, R91: each operand's text after one space, in order; opcode fragments are left out. -/
def renderOperands : List Symbol → String
  | [] => ""
  | y :: ys => if y.isOperand then " " ++ renderSymbol y ++ renderOperands ys else renderOperands ys

/-- R140: `Render`. -/
def render : Decoded → String
  | .known _ p ys => p.mnemonic ++ renderOperands ys
  | .unknown raw _ => Config.unknownMnemonic ++ " " ++ nibblesToHex (asNibbles raw).toList

end Sys2Proof.Machine
end

