-- ==== Sys2Proof/Machine/Stream.lean ====
section
/-! DEFINITION. The stream helper beside the block (41_decode_resolution.md R145; 60_exceptions.md R223;
93_implementation_defined.md U5), and the end state of a program of 95_test_vectors.md section 3: its
results, its text lines and its number of diagnostics. -/

namespace Sys2Proof.Machine

/-- R145: the loop of `DecodeStream` from byte offset `k` on; the length test comes before
`RawFromBytes` (R229). -/
def decodeStreamFrom (d : Dispatcher) : Nat → List Byte → Except Fault (List Decoded)
  | _, [] => .ok []
  | k, [_] => .error (.incompleteTrailingChunk k)
  | k, b0 :: b1 :: rest =>
    match rawFromBytes [b0, b1] with
    | .error f => .error f
    | .ok raw =>
      match decodeStreamFrom d (k + 2) rest with
      | .error f => .error f
      | .ok out => .ok (decode d raw :: out)

/-- R145: `DecodeStream`. It says nothing of the results before a dangling byte (U5). -/
def decodeStream (d : Dispatcher) (bytes : List Byte) : Except Fault (List Decoded) :=
  decodeStreamFrom d 0 bytes

/-- R231: the results of the complete chunks of a stream. -/
def chunkResults (d : Dispatcher) : List Byte → List Decoded
  | b0 :: b1 :: rest => decode d ⟨b0, b1⟩ :: chunkResults d rest
  | _ => []

/-- U5, D19: what a stream decode delivers, and the fault it ends in if any; whether the results before
a dangling byte are delivered is the free value `Config.streamPrefixOnError`. -/
def streamDelivery (d : Dispatcher) (bytes : List Byte) : List Decoded × Option Fault :=
  match decodeStream d bytes with
  | .ok out => (out, none)
  | .error f => (if Config.streamPrefixOnError then chunkResults d bytes else [], some f)

/-- R145: one text line for each result. -/
def renderLines (out : List Decoded) : List String := out.map render

/-- R212: one diagnostic for each unknown result. -/
def diagnosticCount (out : List Decoded) : Nat := out.countP diagO

end Sys2Proof.Machine
end

