-- ==== Sys2Proof/Safety.lean ====
section
/-! DEFINITION. What claims call a good state, a canonical dispatch ROM and a safe run. -/

namespace Sys2Proof.Machine

/-- R20, R47, R250: the ROMs hold what they hold at every time after the build. -/
abbrev State.RomsShipped (s : State) : Prop :=
  s.patternRom = shippedPatternRom ∧ s.dispatchRom = shippedDispatchRom

/-- R46: the outputs hold no memory; with a word on `instr_i` they are those of its decode, without one
they are unspecified (the free value of log entry 3). -/
abbrev State.OutputsCurrent (s : State) : Prop :=
  match s.instr with
  | some raw => s.result = some (decode s.dispatchRom raw) ∧ s.ports = portsOf s.dispatchRom raw
  | none => s.result = none ∧ s.ports = Config.undrivenPorts s.undriven

/-- The invariant of the machine: constant ROMs (R20) and outputs without memory (R46). -/
abbrev State.Inv (s : State) : Prop := s.RomsShipped ∧ s.OutputsCurrent

/-- R54: the stream holds whole two-byte chunks only. -/
abbrev State.WholeStream (s : State) : Prop := s.stream.length % 2 = 0

/-- A safe run: no number of steps ends in a fault or a refusal. -/
def SafeFrom (s : State) : Prop := ∀ k, ∃ t, Host.Core.run Sys2Proof.core k s = .next t

/-- R108: a key is unconstrained exactly at the positions where the variable mask has a symbol
character, so it has a nibble exactly where the mask has the placeholder. -/
def keyFits (variableMask : Quad MaskChar) (k : Key) : Bool :=
  (k.n0.isSome == (variableMask.n0 == .placeholder)) &&
    (k.n1.isSome == (variableMask.n1 == .placeholder)) &&
    (k.n2.isSome == (variableMask.n2 == .placeholder)) &&
    (k.n3.isSome == (variableMask.n3 == .placeholder))

/-- R108, R23: one shape in canonical form: its builder is derived from its mask and supported, its keys
fit the mask, each key is the tuple of its pattern, whose mask it shares, and no key occurs twice. -/
def Entry.wf (e : Entry) : Bool :=
  e.builder == deriveBuilder e.variableMask && e.builder.all runSupported &&
    e.map.all (fun kp => keyFits e.variableMask kp.1 && kp.2.fixedTuple == kp.1 &&
      kp.2.variableMask == e.variableMask) &&
    decide (e.map.map Prod.fst).Nodup

/-- R22, R110: every entry is in canonical form and no variable mask has two entries. -/
def Dispatcher.wf (d : Dispatcher) : Bool :=
  d.all Entry.wf && decide (d.map Entry.variableMask).Nodup

end Sys2Proof.Machine
end

