-- ==== Sys2Proof/Certificates/Slice0/Obligations.lean ====
section
/-! DEFINITION. The statements for the provers: the spec's numbered rules, said of the model. The words of
Sys2Proof.Claims are the vocabulary they share; expected port values are written out here from the
rules and are not computed by the model's own port encoding. -/

namespace Sys2Proof.Claims

open Sys2Proof.Machine

/-- What one decode leaves: the word on the input, the result and the ports, and nothing else changed. -/
def Delivers (s t : State) (raw : Raw) (d : Decoded) (p : Ports) : Prop :=
  t.instr = some raw ∧ t.result = some d ∧ t.ports = p ∧ t.patternRom = s.patternRom ∧
    t.dispatchRom = s.dispatchRom ∧ t.stream = s.stream ∧ t.offset = s.offset ∧
    t.undriven = s.undriven

/-- The symbol of a kind with these nibbles. -/
def opFrag (ns : List Nibble) : Symbol := ⟨.opFrag, ns⟩

/-- A register symbol (R131). -/
def register (r : Nibble) : Symbol := ⟨.register, [r]⟩

/-- A constant symbol (R132). -/
def constant (ns : List Nibble) : Symbol := ⟨.constant, ns⟩

/-- R42: the match outputs of a hit in shape `shape` at row `row` with `n` symbols. -/
def hitPorts (shape : BitVec 3) (row : BitVec 6) (n : BitVec 3) (a b c d : Slot) : Ports :=
  { hitO := true, unknownO := false, diagO := false, shapeO := shape, opcodeO := row, nsymO := n,
    slot0 := a, slot1 := b, slot2 := c, slot3 := d }

/-- R43: the empty slot's encoding. -/
def noSlot : Slot := { kind := 3, pos := 0, len := 0, val := 0 }

/-- R140: the upper-case hexadecimal digit of a nibble. -/
def hexChar (v : Nibble) : Char :=
  ['0', '1', '2', '3', '4', '5', '6', '7', '8', '9', 'A', 'B', 'C', 'D', 'E', 'F'].getD v.toNat '?'

/-- R92: the text of a register. -/
def regText (r : Nibble) : String := "V" ++ String.ofList [hexChar r]

/-- R93: the text of a constant. -/
def hexText (ns : List Nibble) : String := "0x" ++ String.ofList (ns.map hexChar)

/-- R122: does the word hit in the entry? -/
def hits (e : Entry) (raw : Raw) : Prop := (lookup e.map (project e (asNibbles raw))).isSome = true

/-- R23: what the map of the shape `variableMask` holds under `key`. -/
def heldUnder (d : Dispatcher) (variableMask : Quad MaskChar) (key : Key) : Option Pattern :=
  match d.find? (fun e => e.variableMask == variableMask) with
  | some e => lookup e.map key
  | none => none

/-- The nibble of a word at position `i` (R11). -/
def nibbleOf (w : Word) (i : Nat) : Nibble := w.extractLsb' (12 - 4 * i) 4

/-- R113: the word agrees with a pattern's tuple wherever the tuple is not `None`. -/
def agrees (raw : Raw) (k : Key) : Prop :=
  (∀ v, k.n0 = some v → (asNibbles raw).n0 = v) ∧ (∀ v, k.n1 = some v → (asNibbles raw).n1 = v) ∧
    (∀ v, k.n2 = some v → (asNibbles raw).n2 = v) ∧ (∀ v, k.n3 = some v → (asNibbles raw).n3 = v)

/-- R103, D4: what a row is apart from its number in the table. -/
def content (p : Pattern) : String × String × Key := (p.hexPattern, p.mnemonic, p.fixedTuple)

/-- R105: the number of nibbles the runs of a builder take. -/
def totalLen (b : Builder) : Nat := (b.map Run.len).sum

/-- R22: these masks, each once, in the order in which each is first met. -/
def firstMet (ms : List (Quad MaskChar)) : List (Quad MaskChar) :=
  ms.foldl (fun seen m => if m ∈ seen then seen else seen ++ [m]) []

/-- R101: the pattern alphabet of R6 as characters. -/
def alphabet : List Char :=
  ['0', '1', '2', '3', '4', '5', '6', '7', '8', '9', 'A', 'B', 'C', 'D', 'E', 'F', 'N', 'X', 'Y']

/-- The sixteen nibbles. -/
def nibbles : List Nibble := (List.range 16).map (BitVec.ofNat 4)

/-- The 65536 words (95_test_vectors.md section 4), each once, by their nibbles. -/
def allWords : List Raw :=
  nibbles.flatMap fun a => nibbles.flatMap fun b => nibbles.flatMap fun c => nibbles.map fun d =>
    Raw.ofNibbles a b c d

end Sys2Proof.Claims

open Sys2Proof Sys2Proof.Machine Sys2Proof.Claims

/-! ### Reset, the table and the ROMs -/

/-- R110 (last sentence), R250, R254: compiling the shipped table gives the ROM contents of R21 to R23,
which are those after reset. -/
def Obligations.ShippedTableBuildsTheResetRoms : Prop :=
  compileDispatcher shippedTable = .ok State.reset.dispatchRom ∧
    compilePatterns 0 shippedTable = .ok State.reset.patternRom ∧
    powerOn shippedTable = .ok State.reset ∧
    State.reset.patternRom.length = 34 ∧ State.reset.dispatchRom.length = 6 ∧
    (State.reset.dispatchRom.map fun e => e.map.length) = [2, 4, 5, 11, 1, 11]

/-- The invariant holds after reset. -/
def Obligations.ResetMeetsTheInvariant : Prop := State.reset.Inv ∧ State.reset.WholeStream

/-- R24 item 1, R96: the shipped dispatch ROM is canonical; its mnemonics are 34 different ones, none of
them `UNKNOWN`. -/
def Obligations.ShippedRomIsCanonical : Prop :=
  Dispatcher.wf shippedDispatchRom = true ∧
    (shippedPatternRom.map Pattern.mnemonic).Nodup ∧
    (∀ p ∈ shippedPatternRom, p.mnemonic ≠ "UNKNOWN") ∧
    shippedPatternRom.map Pattern.index = List.range 34

/-! ### The codec functions -/

/-- R51: `as_nibbles` gives the four 4-bit pairs, high nibble first, and loses nothing. -/
def Obligations.NibblesOfARawInstruction : Prop :=
  ∀ raw : Raw,
    (asNibbles raw).n0.toNat = raw.b0.toNat / 16 ∧ (asNibbles raw).n1.toNat = raw.b0.toNat % 16 ∧
      (asNibbles raw).n2.toNat = raw.b1.toNat / 16 ∧ (asNibbles raw).n3.toNat = raw.b1.toNat % 16 ∧
      (asNibbles raw).toList.length = 4 ∧
      nibblesToInt (asNibbles raw).toList = raw.word.toNat ∧
      raw.word.toNat = (asNibbles raw).n0.toNat * 4096 + (asNibbles raw).n1.toNat * 256 +
        (asNibbles raw).n2.toNat * 16 + (asNibbles raw).n3.toNat

/-- R50, R256: the first byte in file order is the more significant, and swapping two different bytes
gives a different word. -/
def Obligations.InstructionBytesAreBigEndian : Prop :=
  ∀ b0 b1 : Byte,
    (Raw.word ⟨b0, b1⟩).toNat = b0.toNat * 256 + b1.toNat ∧
      (Raw.word ⟨b1, b0⟩ = Raw.word ⟨b0, b1⟩ ↔ b0 = b1)

/-- R135: the positional value of a nibble run is exact, and undoes the digits of a number. -/
def Obligations.PositionalValueIsExact : Prop :=
  (∀ (n : Nibble) (ns : List Nibble),
      nibblesToInt (n :: ns) = n.toNat * 16 ^ ns.length + nibblesToInt ns) ∧
    nibblesToInt [] = 0 ∧
    (∀ ns : List Nibble, nibblesToInt ns < 16 ^ ns.length) ∧
    ∀ len v : Nat, v < 16 ^ len →
      (digits len v).length = len ∧ nibblesToInt (digits len v) = v

/-- R93: `0x` and exactly one upper-case digit for each nibble, zeros kept. -/
def Obligations.HexTextHasOneDigitPerNibble : Prop :=
  ∀ ns : List Nibble,
    (nibblesToHex ns).toList =
      '0' :: 'x' :: ns.map hexChar

/-- R53: a raw instruction is built from exactly two bytes. -/
def Obligations.RawInstructionTakesTwoBytes : Prop :=
  (∀ b0 b1 : Byte, rawFromBytes [b0, b1] = .ok ⟨b0, b1⟩) ∧
    ∀ bs : List Byte, bs.length ≠ 2 → rawFromBytes bs = .error (.malformedRawInstruction bs.length)

/-! ### Build time -/

/-- R101: a pattern compiles exactly when it has four characters of the alphabet, the mnemonic being any
string; then each position goes to one of the two masks. -/
def Obligations.PatternsCompileExactlyOverTheAlphabet : Prop :=
  (∀ (p m : String) (i : Nat),
      ¬ (p.toList.length = 4 ∧ ∀ c ∈ p.toList, c ∈ alphabet) →
        compilePattern p m i = .error (.malformedPattern p)) ∧
    ∀ (p m : String) (i : Nat), p.toList.length = 4 → (∀ c ∈ p.toList, c ∈ alphabet) →
      ∃ r, compilePattern p m i = .ok r ∧ r.hexPattern = p ∧ r.mnemonic = m ∧ r.index = i ∧
        r.fixedMask.toList = p.toList.map (fun c =>
          match hexVal c with
          | some v => .pat (.hex v)
          | none => .placeholder) ∧
        r.variableMask.toList = p.toList.map (fun c =>
          match symChar c with
          | some y => .pat (.sym y)
          | none => .placeholder)

/-- R102, R103: a compiled pattern's tuple is unconstrained exactly where its fixed mask has the
placeholder, and a position is the placeholder in exactly one of the two masks. -/
def Obligations.MasksAndTupleOfAPatternAgree : Prop :=
  ∀ (p m : String) (i : Nat) (r : Pattern), compilePattern p m i = .ok r →
    r.fixedTuple.toList = r.fixedMask.toList.map (fun c =>
      match c with
      | .pat (.hex v) => some v
      | _ => none) ∧
    (∀ k, k < 4 → ((r.fixedMask.toList[k]? = some .placeholder) ↔
      ¬ (r.variableMask.toList[k]? = some .placeholder))) ∧
    ∀ k, k < 4 → ((r.fixedTuple.toList[k]? = some none) ↔
      ∃ c, r.variableMask.toList[k]? = some (.pat (.sym c)))

/-- R105: the runs of a mask are its maximal runs of equal adjacent characters. -/
def Obligations.RunsAreMaximal : Prop :=
  ∀ m : List MaskChar,
    (runs m).flatMap (fun r => List.replicate r.len r.char) = m ∧
      (∀ r ∈ runs m, 1 ≤ r.len) ∧ (runs m).IsChain (fun a b => a.char ≠ b.char)

/-- R106: a derived builder has its runs in order with the kinds of their characters; their lengths are
1 to 4 and sum to 4. -/
def Obligations.DerivedBuildersCoverFourNibbles : Prop :=
  ∀ m : Quad MaskChar,
    (deriveBuilder m).flatMap (fun r => List.replicate r.len r.kind) =
        m.toList.map (fun c =>
          match c with
          | .pat (.sym .N) => .constant
          | .pat (.sym .X) => .register
          | .pat (.sym .Y) => .register
          | _ => .opFrag) ∧
      (deriveBuilder m).map Run.len = (runs m.toList).map CharRun.len ∧
      totalLen (deriveBuilder m) = 4 ∧
      (∀ r ∈ deriveBuilder m, 1 ≤ r.len ∧ r.len ≤ 4) ∧
      1 ≤ (deriveBuilder m).length ∧ (deriveBuilder m).length ≤ 4

/-- R107: a builder is refused exactly when it has a register run of length other than 1 or a constant
run longer than 3, and the first such run is reported. -/
def Obligations.UnsupportedRunsAreRefused : Prop :=
  ∀ b : Builder,
    (checkRuns b = .ok () ↔
      ∀ r ∈ b, (r.kind = .register → r.len = 1) ∧ (r.kind = .constant → r.len ≤ 3)) ∧
    ∀ f, checkRuns b = .error f →
      ∃ pre r post, b = pre ++ r :: post ∧ f = .unsupportedRun r.kind r.len ∧
        checkRuns pre = .ok () ∧
        ((r.kind = .register ∧ r.len ≠ 1) ∨ (r.kind = .constant ∧ 3 < r.len))

/-- R109: the last row registered under a shape and key is the one held there, every other key keeps
what it held, and the lint changes no dispatcher. -/
def Obligations.LaterRowShadowsEarlier : Prop :=
  (∀ (t : Table) (hp mn : String) (d d' : Dispatcher) (p : Pattern),
      compileDispatcher t = .ok d → compilePattern hp mn t.length = .ok p →
        compileDispatcher (t ++ [(hp, mn)]) = .ok d' →
          ∀ (m : Quad MaskChar) (k : Key),
            heldUnder d' m k =
              if m = p.variableMask ∧ k = p.fixedTuple then some p else heldUnder d m k) ∧
    ∀ (lint : Bool) (t : Table),
      match compileDispatcher t with
      | .ok d => ∃ ws, compileWithLint lint t = .ok (d, ws)
      | .error f => compileWithLint lint t = .error f

/-- R229, R255, D26: rows are compiled in table order, the first failing row ends the build with its own
condition, whatever rows follow, and there is then no machine. -/
def Obligations.FirstFailingRowEndsTheBuild : Prop :=
  ∀ (t rest : Table) (hp mn : String) (d : Dispatcher) (f : Fault),
    compileDispatcher t = .ok d →
      ((compilePattern hp mn t.length = .error f) ∨
        ∃ p, compilePattern hp mn t.length = .ok p ∧ registerPattern d p = .error f) →
        compileDispatcher (t ++ (hp, mn) :: rest) = .error f ∧
          powerOn (t ++ (hp, mn) :: rest) = .error f

/-- R108, R110: every dispatcher the compilation gives is in canonical form, and holds no empty shape. -/
def Obligations.CompiledDispatchersAreCanonical : Prop :=
  ∀ (t : Table) (d : Dispatcher), compileDispatcher t = .ok d →
    Dispatcher.wf d = true ∧ ∀ e ∈ d, e.map ≠ []

/-- R111: permuting the rows of a table no two of whose rows share shape and tuple gives the same shapes,
with the same builders and, row numbers apart, the same keys and patterns; a word that hits in at most one
shape then has the same mnemonic and symbols, row numbers apart. -/
def Obligations.CompilationIsOrderIndependent : Prop :=
  ∀ (t t' : Table) (d : Dispatcher), t.Perm t' → compileDispatcher t = .ok d →
    (∀ ps, compilePatterns 0 t = .ok ps → ps.Pairwise fun p q => p.collides q = false) →
      ∃ d', compileDispatcher t' = .ok d' ∧
        (d.map Entry.variableMask).Perm (d'.map Entry.variableMask) ∧
        (∀ e ∈ d, ∀ e' ∈ d', e.variableMask = e'.variableMask → e.builder = e'.builder) ∧
        (∀ (m : Quad MaskChar) (k : Key),
          (heldUnder d m k).map content = (heldUnder d' m k).map content) ∧
        ∀ raw : Raw, (∀ e ∈ d, ∀ e' ∈ d, hits e raw → hits e' raw → e = e') →
          (decode d raw).mnemonic = (decode d' raw).mnemonic ∧
            (decode d raw).symbols = (decode d' raw).symbols

/-- R113: a word that agrees with the tuple of a pattern in a shape's map looks that pattern up in its
shape; under the shipped table the whole decode gives it. -/
def Obligations.CompiledPatternsMatchTheirLiterals : Prop :=
  (∀ (t : Table) (d : Dispatcher), compileDispatcher t = .ok d →
      ∀ e ∈ d, ∀ kp ∈ e.map, ∀ raw : Raw, agrees raw kp.2.fixedTuple →
        lookup e.map (project e (asNibbles raw)) = some kp.2) ∧
    ∀ e ∈ shippedDispatchRom, ∀ kp ∈ e.map, ∀ raw : Raw, agrees raw kp.2.fixedTuple →
      decode shippedDispatchRom raw = .known raw kp.2 (build e.builder (asNibbles raw).toList)

/-- R112, R215: the empty table compiles to the empty dispatcher, under which every word is unknown. -/
def Obligations.EmptyTableKnowsNoWord : Prop :=
  compileDispatcher [] = .ok [] ∧
    ∀ (s : State) (w : Word), s.dispatchRom = [] →
      ∃ t, exec (decodeWord w) s = .next t ∧
        t.result = some (.unknown (Raw.ofWord w)
          [opFrag [nibbleOf w 0, nibbleOf w 1, nibbleOf w 2, nibbleOf w 3]])

/-! ### The block's decode -/

/-- R121: the projection keeps the nibble under an opcode-fragment run and nulls it under an operand; for
a derived builder it keeps it exactly where the variable mask has the placeholder; and in a compiled
dispatcher it is null exactly where every key of the entry is. -/
def Obligations.ProjectionKeepsFixedNibbles : Prop :=
  (∀ (e : Entry) (pre post : Builder) (r : Run) (ns : Quad Nibble) (i : Nat),
      e.builder = pre ++ r :: post → totalLen pre ≤ i → i < totalLen pre + r.len → i < 4 →
        (project e ns).toList[i]? =
          if r.kind = .opFrag then ns.toList[i]?.map some else some none) ∧
    (∀ (q : Quad PatChar) (e : Entry) (ns : Quad Nibble) (i : Nat), i < 4 →
      e.builder = deriveBuilder (q.map variableChar) →
        (project e ns).toList[i]? =
          if (q.map variableChar).toList[i]? = some .placeholder then ns.toList[i]?.map some
          else some none) ∧
    ∀ (t : Table) (d : Dispatcher), compileDispatcher t = .ok d → ∀ e ∈ d, ∀ kp ∈ e.map,
      ∀ (ns : Quad Nibble) (i : Nat),
        (project e ns).toList[i]? = some none ↔ kp.1.toList[i]? = some none

/-- R122: in a compiled dispatcher a word hits a pattern in an entry exactly when it satisfies the
pattern's mask and value and the pattern is in the entry's map. -/
def Obligations.LookupIsTheMaskedCompare : Prop :=
  ∀ (t : Table) (d : Dispatcher), compileDispatcher t = .ok d →
    ∀ e ∈ d, ∀ (w : Word) (p : Pattern),
      lookup e.map (project e (asNibbles (Raw.ofWord w))) = some p ↔
        (∃ k, (k, p) ∈ e.map) ∧ w &&& p.mask16 = p.match16

/-- R120: the first entry in order that hits gives the result, without a diagnostic; when none does the
result is unknown with one opcode fragment over all four nibbles, and the diagnostic is emitted. -/
def Obligations.FirstHitInOrderWins : Prop :=
  ∀ (d : Dispatcher) (raw : Raw),
    (∀ p ys, decode d raw = .known raw p ys ↔
      ∃ pre e post, d = pre ++ e :: post ∧
        (∀ e' ∈ pre, lookup e'.map (project e' (asNibbles raw)) = none) ∧
        lookup e.map (project e (asNibbles raw)) = some p ∧
        ys = build e.builder (asNibbles raw).toList ∧ (portsOf d raw).diagO = false) ∧
    ((∀ e ∈ d, lookup e.map (project e (asNibbles raw)) = none) →
      decode d raw = .unknown raw [opFrag (asNibbles raw).toList] ∧ (portsOf d raw).diagO = true)

/-- R110, R123: the entries of a compiled dispatcher stand in the order in which their variable masks are
first met in the table; a word decodes to a row of the table whose shape was met no later than that of any
row it agrees with. With R123's example, where swapping the rows swaps the result. -/
def Obligations.ShapeOrderDecidesBetweenShapes : Prop :=
  (∀ (t : Table) (d : Dispatcher) (ps : List Pattern),
      compileDispatcher t = .ok d → compilePatterns 0 t = .ok ps →
        d.map Entry.variableMask = firstMet (ps.map Pattern.variableMask) ∧
        ∀ (raw : Raw) (p : Pattern) (ys : List Symbol), decode d raw = .known raw p ys →
          p ∈ ps ∧ ∀ q ∈ ps, agrees raw q.fixedTuple →
            (ps.map Pattern.variableMask).idxOf p.variableMask ≤
              (ps.map Pattern.variableMask).idxOf q.variableMask) ∧
  ∃ d1 d2 g f,
    compileDispatcher [("1NNN", "GOTO"), ("1XNN", "FOO")] = .ok d1 ∧
    compileDispatcher [("1XNN", "FOO"), ("1NNN", "GOTO")] = .ok d2 ∧
    g.mnemonic = "GOTO" ∧ f.mnemonic = "FOO" ∧
    ∀ (a b c : Nibble),
      (∃ ys, decode d1 (Raw.ofNibbles 1 a b c) = .known (Raw.ofNibbles 1 a b c) g ys) ∧
        ∃ ys, decode d2 (Raw.ofNibbles 1 a b c) = .known (Raw.ofNibbles 1 a b c) f ys

/-- R130: one symbol for each run, in order, with its kind and length; together they hold every nibble
once, in order. -/
def Obligations.SymbolsPartitionTheNibbles : Prop :=
  ∀ (b : Builder) (ns : List Nibble), totalLen b = ns.length →
    (build b ns).map Symbol.kind = b.map Run.kind ∧
      (build b ns).map Symbol.nibbleCount = b.map Run.len ∧
      (build b ns).flatMap Symbol.nibbles = ns

/-- R24 item 2: under the shipped table no word hits in two shapes, and the first nibble selects the only
shape that can hit. -/
def Obligations.ShippedShapesNeverCompete : Prop :=
  ∀ raw : Raw, ∀ e ∈ shippedDispatchRom,
    (lookup e.map (project e (asNibbles raw))).isSome = true →
      (∀ e' ∈ shippedDispatchRom,
        (lookup e'.map (project e' (asNibbles raw))).isSome = true → e' = e) ∧
      shippedDispatchRom[([0, 1, 1, 2, 2, 3, 2, 2, 3, 3, 1, 1, 2, 4, 5, 5] : List Nat).getD
        (asNibbles raw).n0.toNat 6]? = some e

/-- R85, R45: a word decodes to a row exactly when it satisfies that row's mask and value. -/
def Obligations.RowIsDecodedExactlyOnItsMask : Prop :=
  ∀ (w : Word), ∀ p ∈ shippedPatternRom,
    (∃ ys, decode shippedDispatchRom (Raw.ofWord w) = .known (Raw.ofWord w) p ys) ↔
      w &&& p.mask16 = p.match16

/-- R88, R89, R214: the unknown words of the shipped table, exhaustively. -/
def Obligations.UnknownWordsExhaustively : Prop :=
  ∀ w : Word,
    hitO (decode shippedDispatchRom (Raw.ofWord w)) = false ↔
      (nibbleOf w 0 = 0 ∧ w ≠ 0x00E0 ∧ w ≠ 0x00EE) ∨
      (nibbleOf w 0 = 5 ∧ nibbleOf w 3 ≠ 0) ∨
      (nibbleOf w 0 = 8 ∧ nibbleOf w 3 ∈ ([8, 9, 10, 11, 12, 13, 15] : List Nibble)) ∨
      (nibbleOf w 0 = 9 ∧ nibbleOf w 3 ≠ 0) ∨
      (nibbleOf w 0 = 14 ∧ fieldNN w ∉ ([0x9E, 0xA1] : List (BitVec 8))) ∨
      (nibbleOf w 0 = 15 ∧
        fieldNN w ∉ ([0x07, 0x0A, 0x15, 0x18, 0x1E, 0x29, 0x33, 0x55, 0x65] : List (BitVec 8)))

/-- R24 item 3, R88: how many of the 65536 words each shape knows, and how many are unknown. -/
def Obligations.KnownWordsAreCounted : Prop :=
  allWords.length = 65536 ∧
    (([0, 1, 2, 3, 4, 5, 7] : List (BitVec 3)).map fun k =>
      allWords.countP fun raw => (portsOf shippedDispatchRom raw).shapeO == k) =
      [2, 16384, 20480, 2816, 4096, 176, 21582] ∧
    (allWords.countP fun raw => hitO (decode shippedDispatchRom raw)) = 43954

/-! ### The ports -/

/-- R44: the mux array's wiring of the six shipped shapes, and of the unknown result. -/
def Obligations.MuxWiringOfTheShippedShapes : Prop :=
  (shippedDispatchRom.map fun e => wiring 0 e.builder) =
    [ [⟨.opFrag, 0, 4⟩],
      [⟨.opFrag, 0, 1⟩, ⟨.constant, 1, 3⟩],
      [⟨.opFrag, 0, 1⟩, ⟨.register, 1, 1⟩, ⟨.constant, 2, 2⟩],
      [⟨.opFrag, 0, 1⟩, ⟨.register, 1, 1⟩, ⟨.register, 2, 1⟩, ⟨.opFrag, 3, 1⟩],
      [⟨.opFrag, 0, 1⟩, ⟨.register, 1, 1⟩, ⟨.register, 2, 1⟩, ⟨.constant, 3, 1⟩],
      [⟨.opFrag, 0, 1⟩, ⟨.register, 1, 1⟩, ⟨.opFrag, 2, 2⟩] ] ∧
    unknownWiring = [⟨.opFrag, 0, 4⟩]

/-- R45: for every table that compiles, the match lines, hit lines and mux array give on every word the
ports of the lookup. -/
def Obligations.GatesDriveTheSamePorts : Prop :=
  ∀ (t : Table) (d : Dispatcher), compileDispatcher t = .ok d →
    ∀ w : Word, gatePorts d w = portsOf d (Raw.ofWord w)

/-- R43: each symbol's nibbles are the digits of its slot's value, its position is where the symbols
before it end, the slots beyond the last symbol are empty, and there are one to four symbols. -/
def Obligations.SlotsHoldTheSymbols : Prop :=
  ∀ (t : Table) (d : Dispatcher), compileDispatcher t = .ok d → ∀ raw : Raw,
    ((decode d raw).symbols.flatMap Symbol.nibbles = (asNibbles raw).toList) ∧
    1 ≤ (decode d raw).symbols.length ∧ (decode d raw).symbols.length ≤ 4 ∧
    (portsOf d raw).nsymO.toNat = (decode d raw).symbols.length ∧
    ∀ (k : Nat) (slot : Slot),
      [(portsOf d raw).slot0, (portsOf d raw).slot1, (portsOf d raw).slot2,
        (portsOf d raw).slot3][k]? = some slot →
        match (decode d raw).symbols[k]? with
        | some y => digits slot.len.toNat slot.val.toNat = y.nibbles ∧
            slot.val.toNat = nibblesToInt y.nibbles ∧
            slot.pos.toNat = (((decode d raw).symbols.take k).map Symbol.nibbleCount).sum ∧
            slot.kind = (match y.kind with | .opFrag => 0 | .register => 1 | .constant => 2)
        | none => slot = noSlot

/-- D3: the port encoding is injective; two words with the same ports are the same word. -/
def Obligations.PortsDetermineTheWord : Prop :=
  ∀ (t : Table) (d : Dispatcher), compileDispatcher t = .ok d →
    ∀ raw raw' : Raw, portsOf d raw = portsOf d raw' → raw = raw'

/-- R42, V2: under the shipped table the codes stay in their ranges, and hit, unknown and diagnostic agree
with them. -/
def Obligations.PortCodesStayInRange : Prop :=
  ∀ raw : Raw,
    ((portsOf shippedDispatchRom raw).hitO = true →
      (portsOf shippedDispatchRom raw).opcodeO.toNat ≤ 33 ∧
        (portsOf shippedDispatchRom raw).shapeO.toNat ≤ 5) ∧
    ((portsOf shippedDispatchRom raw).hitO = false →
      (portsOf shippedDispatchRom raw).opcodeO = 63 ∧ (portsOf shippedDispatchRom raw).shapeO = 7 ∧
        (portsOf shippedDispatchRom raw).nsymO = 1) ∧
    (portsOf shippedDispatchRom raw).unknownO = !(portsOf shippedDispatchRom raw).hitO ∧
    (portsOf shippedDispatchRom raw).diagO = (portsOf shippedDispatchRom raw).unknownO

/-! ### Rendering -/

/-- R140: the mnemonic and, for each operand in order, one space and its text; a register is `V` and one
digit, a constant its hexadecimal; opcode fragments are left out. With the worked examples. -/
def Obligations.KnownLinesListTheOperands : Prop :=
  ∀ (raw : Raw) (p : Pattern) (ys : List Symbol),
    render (.known raw p ys) =
        String.join (p.mnemonic :: (ys.filter Symbol.isOperand).map fun y => " " ++ renderSymbol y) ∧
      (∀ r : Nibble, renderSymbol (register r) = regText r) ∧
      (∀ ns : List Nibble, renderSymbol (constant ns) = hexText ns) ∧
      (∀ ns : List Nibble, renderSymbol (opFrag ns) = hexText ns) ∧
      (∀ ys' : List Symbol, render (.unknown raw ys') = "UNKNOWN " ++ hexText (asNibbles raw).toList) ∧
      render (decode shippedDispatchRom ⟨0x6A, 0x12⟩) = "SETR VA 0x12" ∧
      render (decode shippedDispatchRom ⟨0x81, 0x23⟩) = "XOR V1 V2" ∧
      render (decode shippedDispatchRom ⟨0x09, 0x99⟩) = "UNKNOWN 0x0999"

/-! ### Words and instructions -/

/-- A few words written out bit by bit from the Encoding lines of R150 to R210, one or two of each format,
read as the instruction they stand for. -/
def Obligations.WordsReadAsTheSpecEncodes : Prop :=
  decodeWord 0b0000000011100000#16 = .clear ∧
    decodeWord 0b0000000011101110#16 = .ret ∧
    decodeWord 0b0001001000110100#16 = .goto 0x234 ∧
    decodeWord 0b0110101000010010#16 = .setr 0xA 0x12 ∧
    decodeWord 0b1000000100100011#16 = .xor 1 2 ∧
    decodeWord 0b1000000100101110#16 = .shiftl 1 2 ∧
    decodeWord 0b1101000100100101#16 = .draw 1 2 5 ∧
    decodeWord 0b1110001110011110#16 = .skpr 3 ∧
    decodeWord 0b1111001100001010#16 = .key 3 ∧
    decodeWord 0b0000100110011001#16 = .unknown 0x0999

/-- R85: the rows of the encoding table are pairwise disjoint: a word that matches a row reads as that
row's instruction, and as the fallback only when it matches none. -/
def Obligations.EncodingRowsAreDisjoint : Prop :=
  (∀ r ∈ encTable, ∀ w : Word, r.hits w = true → decodeWord w = r.instr w) ∧
    (encTable.Pairwise fun r r' => ∀ w : Word, ¬ (r.hits w = true ∧ r'.hits w = true)) ∧
    ∀ w : Word, (∀ r ∈ encTable, r.hits w = false) → decodeWord w = .unknown w

/-- The encoding table (R84) and the pattern ROM (R21) give every mnemonic the same mask and value. -/
def Obligations.EncodingTableAgreesWithThePatternRom : Prop :=
  (encTable.map fun r => (r.mnemonic, r.mask, r.value)).Perm
    (shippedPatternRom.map fun p => (p.mnemonic, p.mask16, p.match16))

/-- Every well-formed instruction, with every operand, is read back from its word and from its bytes. -/
def Obligations.DecodeOfEncode : Prop :=
  ∀ i : Instr, i.WellFormed →
    decodeWord (encodeWord i) = i ∧
      ∀ rest : List Byte, decodeBytes (encode i ++ rest) = .ok (i, rest)

/-- Every word reads as a well-formed instruction that encodes to the same word. -/
def Obligations.EncodeOfDecode : Prop :=
  ∀ w : Word, (decodeWord w).WellFormed ∧ encodeWord (decodeWord w) = w

/-! ### What the instructions deliver -/

/-- R150, R151: `CLEAR` and `RETURN`. -/
def Obligations.PatternsWithoutOperandDecode : Prop :=
  ∀ s : State, s.RomsShipped →
    (∃ t, exec .clear s = .next t ∧
      Delivers s t ⟨0x00, 0xE0⟩ (.known ⟨0x00, 0xE0⟩ row0 [opFrag [0, 0, 0xE, 0]])
        (hitPorts 0 0 1 ⟨0, 0, 4, 0x00E0⟩ noSlot noSlot noSlot) ∧
      t.result.map render = some "CLEAR") ∧
    ∃ t, exec .ret s = .next t ∧
      Delivers s t ⟨0x00, 0xEE⟩ (.known ⟨0x00, 0xEE⟩ row1 [opFrag [0, 0, 0xE, 0xE]])
        (hitPorts 0 1 1 ⟨0, 0, 4, 0x00EE⟩ noSlot noSlot noSlot) ∧
      t.result.map render = some "RETURN"

/-- R152 to R155: the patterns with a 12-bit constant; `NNN = w[11:0]`, rendered with three digits. -/
def Obligations.PatternsWithA12BitConstantDecode : Prop :=
  ∀ s : State, s.RomsShipped → ∀ n1 n2 n3 : Nibble,
    let nnn : BitVec 12 := n1 ++ n2 ++ n3
    ∀ c ∈ ([ (.goto nnn, 0x1, row2, 2, "GOTO"), (.call nnn, 0x2, row3, 3, "CALL"),
        (.seti nnn, 0xA, row19, 19, "SETI"), (.jumpr nnn, 0xB, row20, 20, "JUMPR") ] :
          List (Instr × Nibble × Pattern × BitVec 6 × String)),
      match c with
      | (i, op, row, k, name) =>
        ∃ t, exec i s = .next t ∧
          Delivers s t ⟨op ++ n1, n2 ++ n3⟩
            (.known ⟨op ++ n1, n2 ++ n3⟩ row [opFrag [op], constant [n1, n2, n3]])
            (hitPorts 1 k 2 ⟨0, 0, 1, op.setWidth 16⟩ ⟨2, 1, 3, nnn.setWidth 16⟩ noSlot noSlot) ∧
          t.result.map render = some (name ++ " " ++ hexText [n1, n2, n3])

/-- R160 to R164: the patterns with one register and an 8-bit constant. -/
def Obligations.PatternsWithARegisterAndAByteDecode : Prop :=
  ∀ s : State, s.RomsShipped → ∀ x n2 n3 : Nibble,
    let nn : BitVec 8 := n2 ++ n3
    ∀ c ∈ ([ (.sieq x nn, 0x3, row4, 4, "SIEQ"), (.sine x nn, 0x4, row5, 5, "SINE"),
        (.setr x nn, 0x6, row7, 7, "SETR"), (.addi x nn, 0x7, row8, 8, "ADDI"),
        (.rand x nn, 0xC, row21, 21, "RAND") ] :
          List (Instr × Nibble × Pattern × BitVec 6 × String)),
      match c with
      | (i, op, row, k, name) =>
        ∃ t, exec i s = .next t ∧
          Delivers s t ⟨op ++ x, nn⟩
            (.known ⟨op ++ x, nn⟩ row [opFrag [op], register x, constant [n2, n3]])
            (hitPorts 2 k 3 ⟨0, 0, 1, op.setWidth 16⟩ ⟨1, 1, 1, x.setWidth 16⟩
              ⟨2, 2, 2, nn.setWidth 16⟩ noSlot) ∧
          t.result.map render = some (name ++ " " ++ regText x ++ " " ++ hexText [n2, n3])

/-- R170 to R180: the patterns with two registers and a fixed last nibble. -/
def Obligations.PatternsWithTwoRegistersDecode : Prop :=
  ∀ s : State, s.RomsShipped → ∀ x y : Nibble,
    ∀ c ∈ ([ (.sreq x y, 0x5, 0x0, row6, 6, "SREQ"), (.copy x y, 0x8, 0x0, row9, 9, "COPY"),
        (.or x y, 0x8, 0x1, row10, 10, "OR"), (.and x y, 0x8, 0x2, row11, 11, "AND"),
        (.xor x y, 0x8, 0x3, row12, 12, "XOR"), (.add x y, 0x8, 0x4, row13, 13, "ADD"),
        (.sub x y, 0x8, 0x5, row14, 14, "SUB"), (.shiftr x y, 0x8, 0x6, row15, 15, "SHIFTR"),
        (.subn x y, 0x8, 0x7, row16, 16, "SUB-"), (.shiftl x y, 0x8, 0xE, row17, 17, "SHIFTL"),
        (.srne x y, 0x9, 0x0, row18, 18, "SRNE") ] :
          List (Instr × Nibble × Nibble × Pattern × BitVec 6 × String)),
      match c with
      | (i, op, low, row, k, name) =>
        ∃ t, exec i s = .next t ∧
          Delivers s t ⟨op ++ x, y ++ low⟩
            (.known ⟨op ++ x, y ++ low⟩ row [opFrag [op], register x, register y, opFrag [low]])
            (hitPorts 3 k 4 ⟨0, 0, 1, op.setWidth 16⟩ ⟨1, 1, 1, x.setWidth 16⟩
              ⟨1, 2, 1, y.setWidth 16⟩ ⟨0, 3, 1, low.setWidth 16⟩) ∧
          t.result.map render = some (name ++ " " ++ regText x ++ " " ++ regText y)

/-- R181: `DRAW`; `N` is rendered with one digit. -/
def Obligations.DrawPatternDecodes : Prop :=
  ∀ s : State, s.RomsShipped → ∀ x y n : Nibble,
    ∃ t, exec (.draw x y n) s = .next t ∧
      Delivers s t ⟨0xD#4 ++ x, y ++ n⟩
        (.known ⟨0xD#4 ++ x, y ++ n⟩ row22 [opFrag [0xD], register x, register y, constant [n]])
        (hitPorts 4 22 4 ⟨0, 0, 1, 0xD⟩ ⟨1, 1, 1, x.setWidth 16⟩ ⟨1, 2, 1, y.setWidth 16⟩
          ⟨2, 3, 1, n.setWidth 16⟩) ∧
      t.result.map render = some ("DRAW " ++ regText x ++ " " ++ regText y ++ " " ++ hexText [n])

/-- R190 to R200: the patterns with one register and a fixed low byte, which is one fragment of two
nibbles. -/
def Obligations.PatternsWithARegisterDecode : Prop :=
  ∀ s : State, s.RomsShipped → ∀ x : Nibble,
    ∀ c ∈ ([ (.skpr x, 0xE, 0x9, 0xE, row23, 23, "SKPR"), (.sknp x, 0xE, 0xA, 0x1, row24, 24, "SKNP"),
        (.rdel x, 0xF, 0x0, 0x7, row25, 25, "RDEL"), (.key x, 0xF, 0x0, 0xA, row26, 26, "KEY"),
        (.tdel x, 0xF, 0x1, 0x5, row27, 27, "TDEL"), (.tsnd x, 0xF, 0x1, 0x8, row28, 28, "TSND"),
        (.iadd x, 0xF, 0x1, 0xE, row29, 29, "IADD"), (.char x, 0xF, 0x2, 0x9, row30, 30, "CHAR"),
        (.dec x, 0xF, 0x3, 0x3, row31, 31, "DEC"), (.dump x, 0xF, 0x5, 0x5, row32, 32, "DUMP"),
        (.load x, 0xF, 0x6, 0x5, row33, 33, "LOAD") ] :
          List (Instr × Nibble × Nibble × Nibble × Pattern × BitVec 6 × String)),
      match c with
      | (i, op, n2, n3, row, k, name) =>
        ∃ t, exec i s = .next t ∧
          Delivers s t ⟨op ++ x, n2 ++ n3⟩
            (.known ⟨op ++ x, n2 ++ n3⟩ row [opFrag [op], register x, opFrag [n2, n3]])
            (hitPorts 5 k 3 ⟨0, 0, 1, op.setWidth 16⟩ ⟨1, 1, 1, x.setWidth 16⟩
              ⟨0, 2, 2, (n2 ++ n3 : BitVec 8).setWidth 16⟩ noSlot) ∧
          t.result.map render = some (name ++ " " ++ regText x)

/-- R210, R212: a word no row matches gives the unknown result and the diagnostic, and is no error. -/
def Obligations.UnknownWordsDeliverTheFallback : Prop :=
  ∀ s : State, s.RomsShipped → ∀ w : Word, (Instr.unknown w).WellFormed →
    ∃ t, exec (.unknown w) s = .next t ∧
      Delivers s t (Raw.ofWord w)
        (.unknown (Raw.ofWord w)
          [opFrag [nibbleOf w 0, nibbleOf w 1, nibbleOf w 2, nibbleOf w 3]])
        { hitO := false, unknownO := true, diagO := true, shapeO := 7, opcodeO := 63, nsymO := 1,
          slot0 := ⟨0, 0, 4, w⟩, slot1 := noSlot, slot2 := noSlot, slot3 := noSlot } ∧
      t.result.map render =
        some ("UNKNOWN " ++ hexText [nibbleOf w 0, nibbleOf w 1, nibbleOf w 2, nibbleOf w 3])

/-- R120, R125: for every dispatch ROM and every word, the instruction the word reads as completes, and
delivers exactly the block's decode of that word under that ROM. -/
def Obligations.ExecutionIsTheBlockDecode : Prop :=
  ∀ (s : State) (w : Word), ∃ t, exec (decodeWord w) s = .next t ∧
    Delivers s t (Raw.ofWord w) (decode s.dispatchRom (Raw.ofWord w))
      (portsOf s.dispatchRom (Raw.ofWord w))

/-- R56, R20: no instruction writes a ROM or touches the reader, and presenting the same word again
changes nothing. -/
def Obligations.DecodingHasNoSideEffect : Prop :=
  ∀ (i : Instr) (s : State), ∃ t, exec i s = .next t ∧
    t.patternRom = s.patternRom ∧ t.dispatchRom = s.dispatchRom ∧ t.stream = s.stream ∧
    t.offset = s.offset ∧ t.undriven = s.undriven ∧ exec i t = .next t

/-- R35, R257: the outputs of a decode depend on the dispatch ROM and the word alone, not on what any
earlier decode left in the state. -/
def Obligations.OutputsIgnoreHistory : Prop :=
  ∀ (i j : Instr) (s s' t t' u : State), s.dispatchRom = s'.dispatchRom →
    exec j s = .next u → exec i u = .next t → exec i s' = .next t' →
      t.instr = t'.instr ∧ t.result = t'.result ∧ t.ports = t'.ports

/-! ### Steps and streams -/

/-- R145, R54: when the reader has a whole chunk, a step is the meaning of the instruction it holds, at
the state with the reader past it. -/
def Obligations.StepRunsTheDecodedInstruction : Prop :=
  ∀ (s : State) (b0 b1 : Byte) (rest : List Byte) (i : Instr), s.stream = b0 :: b1 :: rest →
    decodeBytes [b0, b1] = .ok (i, []) →
      step s = exec i { s with stream := rest, offset := s.offset + 2 }

/-- R223: one dangling byte ends the stream with `E3` at its offset. -/
def Obligations.DanglingByteIsAFatalStreamError : Prop :=
  ∀ (s : State) (b : Byte), s.stream = [b] → step s = .fault (.incompleteTrailingChunk s.offset)

/-- Log entry 4 (the model's choice): with nothing left to present a step goes on, the ROMs and the reader
unchanged, and no result is delivered. -/
def Obligations.EndOfStreamUndrivesTheInput : Prop :=
  ∀ s : State, s.stream = [] →
    ∃ t, step s = .next t ∧ t.patternRom = s.patternRom ∧ t.dispatchRom = s.dispatchRom ∧
      t.stream = [] ∧ t.offset = s.offset ∧ t.instr = none ∧ t.result = none

/-- R20, R46: every step keeps the ROM contents and leaves the outputs a function of the word presented. -/
def Obligations.EveryStepKeepsTheInvariant : Prop :=
  ∀ s t : State, s.Inv → step s = .next t → t.Inv

/-- R213: an unknown word stops nothing and leaves no trace: after the word that follows it the state is
the one that word alone would have left. -/
def Obligations.UnknownWordStopsNothing : Prop :=
  ∀ (s : State) (b0 b1 c0 c1 : Byte) (rest : List Byte), s.stream = b0 :: b1 :: c0 :: c1 :: rest →
    (∃ ys, decode s.dispatchRom ⟨b0, b1⟩ = .unknown ⟨b0, b1⟩ ys) →
      ∃ t u, step s = .next t ∧ t.ports.diagO = true ∧ step t = .next u ∧
        step { s with stream := c0 :: c1 :: rest, offset := s.offset + 2 } = .next u ∧
        u.result = some (decode s.dispatchRom ⟨c0, c1⟩) ∧ u.ports = portsOf s.dispatchRom ⟨c0, c1⟩

/-- R145, R58: a stream of even length gives one result for each two bytes, each that of its own word; a
stream of odd length ends in `E3` at the offset of its last byte. -/
def Obligations.StreamResultsArePointwise : Prop :=
  ∀ (d : Dispatcher) (bytes : List Byte),
    (bytes.length % 2 = 0 →
      ∃ out, decodeStream d bytes = .ok out ∧ out.length * 2 = bytes.length ∧
        ∀ (k : Nat) (b0 b1 : Byte), bytes[2 * k]? = some b0 → bytes[2 * k + 1]? = some b1 →
          out[k]? = some (decode d ⟨b0, b1⟩)) ∧
    (bytes.length % 2 = 1 →
      decodeStream d bytes = .error (.incompleteTrailingChunk (bytes.length - 1)))

/-- R145, R231: running the machine over a stream presents to the block, step by step, the words of the
loop of `DecodeStream`, with their results; an odd stream then ends in `E3`. For a stream of odd length
the first clause, that the whole chunks are presented and have results before the fault, is the model's
choice (log entry 5) and no rule: R145 and D19 let a claim rely on neither answer. -/
def Obligations.RunningTheMachineDecodesTheStream : Prop :=
  ∀ s : State,
    (∀ k, k < s.stream.length / 2 →
      ∃ t, Host.Core.run Sys2Proof.core (k + 1) s = .next t ∧
        t.result = (chunkResults s.dispatchRom s.stream)[k]? ∧
        t.offset = s.offset + 2 * (k + 1)) ∧
    (∀ out, decodeStream s.dispatchRom s.stream = .ok out →
      out = chunkResults s.dispatchRom s.stream) ∧
    (s.stream.length % 2 = 1 →
      Host.Core.run Sys2Proof.core (s.stream.length / 2 + 1) s =
        .fault (.incompleteTrailingChunk (s.offset + s.stream.length - 1)))

/-- R125, R223: from a state whose stream holds whole chunks no run ever stops. That it goes on after the
last word is the model's choice (log entry 4) and no rule of the spec. -/
def Obligations.WholeStreamsRunSafely : Prop := ∀ s : State, s.WholeStream → SafeFrom s

/-- R54, R125: a step from a state whose stream holds whole chunks answers a next state whose stream again
holds whole chunks. That it does so with nothing left to present is the model's choice (log entry 4). -/
def Obligations.EveryStepKeepsTheStreamWhole : Prop :=
  ∀ s : State, s.WholeStream → ∃ t, step s = .next t ∧ t.WholeStream

/-- R70: every instruction is one word of 16 bits: it takes exactly two bytes, no shorter or longer word
holds one, fewer bytes hold none, and any two bytes hold one, whatever bytes follow them. -/
def Obligations.EveryInstructionIsOneWord : Prop :=
  (∀ i : Instr, (encode i).length = 2) ∧
    (∀ nbits w : Nat, nbits ≠ 16 → decodeTableWord nbits w = none) ∧
    (∀ w : Word, decodeTableWord 16 w.toNat = some (decodeWord w)) ∧
    (∀ bs : List Byte, bs.length < 2 → ∃ e, decodeBytes bs = .error e) ∧
    ∀ (b0 b1 : Byte) (rest : List Byte),
      decodeBytes (b0 :: b1 :: rest) = .ok (decodeWord (Raw.word ⟨b0, b1⟩), rest)
end

