-- ==== Sys2Proof/Laws/State.lean ====
section
/-! SUPPORT. One lemma per field per update of the state, so that no proof unfolds a record update. -/

namespace Sys2Proof.Machine

@[simp] theorem State.present_patternRom (raw : Raw) (s : State) :
    (s.present raw).patternRom = s.patternRom := rfl

@[simp] theorem State.present_dispatchRom (raw : Raw) (s : State) :
    (s.present raw).dispatchRom = s.dispatchRom := rfl

@[simp] theorem State.present_stream (raw : Raw) (s : State) :
    (s.present raw).stream = s.stream := rfl

@[simp] theorem State.present_offset (raw : Raw) (s : State) :
    (s.present raw).offset = s.offset := rfl

@[simp] theorem State.present_instr (raw : Raw) (s : State) :
    (s.present raw).instr = some raw := rfl

@[simp] theorem State.present_result (raw : Raw) (s : State) :
    (s.present raw).result = some (decode s.dispatchRom raw) := rfl

@[simp] theorem State.present_ports (raw : Raw) (s : State) :
    (s.present raw).ports = portsOf s.dispatchRom raw := rfl

@[simp] theorem State.present_undriven (raw : Raw) (s : State) :
    (s.present raw).undriven = s.undriven := rfl

@[simp] theorem State.undrive_patternRom (s : State) :
    (s.undrive).patternRom = s.patternRom := rfl

@[simp] theorem State.undrive_dispatchRom (s : State) :
    (s.undrive).dispatchRom = s.dispatchRom := rfl

@[simp] theorem State.undrive_stream (s : State) :
    (s.undrive).stream = s.stream := rfl

@[simp] theorem State.undrive_offset (s : State) :
    (s.undrive).offset = s.offset := rfl

@[simp] theorem State.undrive_instr (s : State) :
    (s.undrive).instr = none := rfl

@[simp] theorem State.undrive_result (s : State) :
    (s.undrive).result = none := rfl

@[simp] theorem State.undrive_ports (s : State) :
    (s.undrive).ports = Config.undrivenPorts (s.undriven + 1) := rfl

@[simp] theorem State.undrive_undriven (s : State) :
    (s.undrive).undriven = s.undriven + 1 := rfl

@[simp] theorem State.advance_patternRom (rest : List Byte) (s : State) :
    (s.advance rest).patternRom = s.patternRom := rfl

@[simp] theorem State.advance_dispatchRom (rest : List Byte) (s : State) :
    (s.advance rest).dispatchRom = s.dispatchRom := rfl

@[simp] theorem State.advance_stream (rest : List Byte) (s : State) :
    (s.advance rest).stream = rest := rfl

@[simp] theorem State.advance_offset (rest : List Byte) (s : State) :
    (s.advance rest).offset = s.offset + 2 := rfl

@[simp] theorem State.advance_instr (rest : List Byte) (s : State) :
    (s.advance rest).instr = s.instr := rfl

@[simp] theorem State.advance_result (rest : List Byte) (s : State) :
    (s.advance rest).result = s.result := rfl

@[simp] theorem State.advance_ports (rest : List Byte) (s : State) :
    (s.advance rest).ports = s.ports := rfl

@[simp] theorem State.advance_undriven (rest : List Byte) (s : State) :
    (s.advance rest).undriven = s.undriven := rfl

@[simp] theorem State.withStreamWord_patternRom (w : Word) (s : State) :
    (s.withStreamWord w).patternRom = s.patternRom := rfl

@[simp] theorem State.withStreamWord_dispatchRom (w : Word) (s : State) :
    (s.withStreamWord w).dispatchRom = s.dispatchRom := rfl

@[simp] theorem State.withStreamWord_stream (w : Word) (s : State) :
    (s.withStreamWord w).stream = (Raw.ofWord w).bytes ++ s.stream.drop 2 := rfl

@[simp] theorem State.withStreamWord_offset (w : Word) (s : State) :
    (s.withStreamWord w).offset = s.offset := rfl

@[simp] theorem State.withStreamWord_instr (w : Word) (s : State) :
    (s.withStreamWord w).instr = s.instr := rfl

@[simp] theorem State.withStreamWord_result (w : Word) (s : State) :
    (s.withStreamWord w).result = s.result := rfl

@[simp] theorem State.withStreamWord_ports (w : Word) (s : State) :
    (s.withStreamWord w).ports = s.ports := rfl

@[simp] theorem State.withStreamWord_undriven (w : Word) (s : State) :
    (s.withStreamWord w).undriven = s.undriven := rfl

@[simp] theorem State.reset_patternRom : State.reset.patternRom = shippedPatternRom := rfl

@[simp] theorem State.reset_dispatchRom : State.reset.dispatchRom = shippedDispatchRom := rfl

@[simp] theorem State.reset_stream : State.reset.stream = [] := rfl

@[simp] theorem State.reset_offset : State.reset.offset = 0 := rfl

@[simp] theorem State.reset_instr : State.reset.instr = none := rfl

@[simp] theorem State.reset_result : State.reset.result = none := rfl

@[simp] theorem State.reset_ports : State.reset.ports = Config.undrivenPorts 0 := rfl

@[simp] theorem State.reset_undriven : State.reset.undriven = 0 := rfl

end Sys2Proof.Machine
end

