-- ==== Sys2Proof/Laws/Ops.lean ====
section
/-! SUPPORT. What the shared operations can do, said once: the numeric value of joined nibbles and bytes,
the nibbles of an assembled word, what exec and step can answer, and the laws of lookup and insertion. -/

namespace Sys2Proof.Machine

/-! ### Nibbles, bytes and words -/

theorem toNat_nibble_append (a b : Nibble) : (a ++ b : BitVec 8).toNat = a.toNat * 16 + b.toNat := by
  have h := BitVec.toNat_append a b
  rw [← Nat.shiftLeft_add_eq_or_of_lt b.isLt, Nat.shiftLeft_eq] at h
  exact h

@[simp] theorem highNibble_append (a b : Nibble) : highNibble (a ++ b) = a := by
  apply BitVec.eq_of_toNat_eq
  have := toNat_nibble_append a b
  simp only [highNibble, BitVec.extractLsb'_toNat, this, Nat.shiftRight_eq_div_pow]
  omega

@[simp] theorem lowNibble_append (a b : Nibble) : lowNibble (a ++ b) = b := by
  apply BitVec.eq_of_toNat_eq
  have := toNat_nibble_append a b
  simp only [lowNibble, BitVec.extractLsb'_toNat, this, Nat.shiftRight_eq_div_pow]
  omega

@[simp] theorem highNibble_append_lowNibble (b : Byte) : highNibble b ++ lowNibble b = b := by
  apply BitVec.eq_of_toNat_eq
  refine (toNat_nibble_append _ _).trans ?_
  simp only [highNibble, lowNibble, BitVec.extractLsb'_toNat, Nat.shiftRight_eq_div_pow]
  omega

theorem toNat_highNibble (b : Byte) : (highNibble b).toNat = b.toNat / 16 := by
  simp only [highNibble, BitVec.extractLsb'_toNat, Nat.shiftRight_eq_div_pow]
  omega

theorem toNat_lowNibble (b : Byte) : (lowNibble b).toNat = b.toNat % 16 := by
  simp [lowNibble, BitVec.extractLsb'_toNat]

theorem toNat_word (r : Raw) : r.word.toNat = r.b0.toNat * 256 + r.b1.toNat := by
  have h := BitVec.toNat_append r.b0 r.b1
  rw [← Nat.shiftLeft_add_eq_or_of_lt r.b1.isLt, Nat.shiftLeft_eq] at h
  exact h

@[simp] theorem word_ofWord (w : Word) : (Raw.ofWord w).word = w := by
  apply BitVec.eq_of_toNat_eq
  rw [toNat_word]
  simp only [Raw.ofWord, BitVec.extractLsb'_toNat, Nat.shiftRight_eq_div_pow]
  omega

@[simp] theorem ofWord_word (r : Raw) : Raw.ofWord r.word = r := by
  obtain ⟨b0, b1⟩ := r
  have h := toNat_word ⟨b0, b1⟩
  unfold Raw.ofWord
  congr 1 <;> apply BitVec.eq_of_toNat_eq <;>
    simp only [BitVec.extractLsb'_toNat, Nat.shiftRight_eq_div_pow, h] <;> omega

@[simp] theorem asNibbles_ofNibbles (n0 n1 n2 n3 : Nibble) :
    asNibbles (Raw.ofNibbles n0 n1 n2 n3) = ⟨n0, n1, n2, n3⟩ := by
  simp [asNibbles, Raw.ofNibbles]

@[simp] theorem ofNibbles_asNibbles (r : Raw) :
    Raw.ofNibbles (asNibbles r).n0 (asNibbles r).n1 (asNibbles r).n2 (asNibbles r).n3 = r := by
  simp [asNibbles, Raw.ofNibbles]

/-! ### Hexadecimal digits -/

@[simp] theorem hexVal_hexDigit : ∀ v : Nibble, hexVal (hexDigit v) = some v := by decide

theorem hexDigit_of_hexVal {c : Char} {v : Nibble} (h : hexVal c = some v) : hexDigit v = c := by
  have := List.find?_some h
  simpa using this

/-- A character has the value `v` exactly when it is the digit of `v`. -/
theorem hexVal_eq_some_iff {c : Char} {v : Nibble} : hexVal c = some v ↔ hexDigit v = c :=
  ⟨hexDigit_of_hexVal, fun h => h ▸ hexVal_hexDigit v⟩

/-! ### exec and step -/

/-- What exec can do: some word is presented and its decode drives the outputs. -/
theorem exec_presents (i : Instr) (s : State) : ∃ raw, exec i s = .next (s.present raw) := by
  cases i <;> exact ⟨_, rfl⟩

/-- The word that exec presents does not depend on the state. -/
theorem exec_presents_uniformly (i : Instr) : ∃ raw, ∀ s, exec i s = .next (s.present raw) := by
  cases i <;> exact ⟨_, fun _ => rfl⟩

@[simp] theorem present_present (raw raw' : Raw) (s : State) :
    (s.present raw').present raw = s.present raw := rfl

theorem step_nil {s : State} (h : s.stream = []) : step s = .next s.undrive := by
  simp [step, fetch, h]

theorem step_singleton {s : State} {b : Byte} (h : s.stream = [b]) :
    step s = .fault (.incompleteTrailingChunk s.offset) := by
  simp [step, fetch, h]

theorem step_cons {s : State} {b0 b1 : Byte} {rest : List Byte} (h : s.stream = b0 :: b1 :: rest) :
    step s = exec (decodeWord (Raw.word ⟨b0, b1⟩)) (s.advance rest) := by
  simp [step, fetch, h]

/-- What a step that goes on can do: nothing was left to present, or the first chunk of the stream was
presented after the reader went past it. -/
theorem step_cases {s t : State} (h : step s = .next t) :
    (s.stream = [] ∧ t = s.undrive) ∨
      ∃ b0 b1 rest raw, s.stream = b0 :: b1 :: rest ∧ t = (s.advance rest).present raw := by
  match hs : s.stream with
  | [] =>
    rw [step_nil hs] at h
    exact .inl ⟨rfl, by cases h; rfl⟩
  | [b] =>
    rw [step_singleton hs] at h
    cases h
  | b0 :: b1 :: rest =>
    rw [step_cons hs] at h
    obtain ⟨raw, hr⟩ := exec_presents (decodeWord (Raw.word ⟨b0, b1⟩)) (s.advance rest)
    rw [hr] at h
    exact .inr ⟨b0, b1, rest, raw, rfl, by cases h; rfl⟩

/-! ### Lookup and insertion -/

@[simp] theorem lookup_nil (k : Key) : lookup [] k = none := rfl

theorem lookup_cons (kp : Key × Pattern) (m : List (Key × Pattern)) (k : Key) :
    lookup (kp :: m) k = if kp.1 = k then some kp.2 else lookup m k := rfl

/-- A hit is an element of the map. -/
theorem mem_of_lookup {m : List (Key × Pattern)} {k : Key} {p : Pattern} (h : lookup m k = some p) :
    (k, p) ∈ m := by
  induction m with
  | nil => simp at h
  | cons kp m ih =>
    rw [lookup_cons] at h
    split at h
    · rename_i hk
      cases h
      subst hk
      exact List.mem_cons_self
    · exact List.mem_cons_of_mem _ (ih h)

/-- Reading a map after an insertion. -/
theorem lookup_mapInsert (m : List (Key × Pattern)) (k : Key) (p : Pattern) (k' : Key) :
    lookup (mapInsert m k p) k' = if k = k' then some p else lookup m k' := by
  induction m with
  | nil => simp [mapInsert, lookup_cons]
  | cons kp m ih =>
    by_cases hk : kp.1 = k
    · subst hk
      by_cases hk' : kp.1 = k' <;> simp [mapInsert, lookup_cons, hk']
    · simp only [mapInsert, hk, if_false, lookup_cons, ih]
      by_cases hk' : kp.1 = k'
      · simp [hk', show k ≠ k' from fun h => hk (hk'.trans h.symm)]
      · simp [hk']

/-- The keys after an insertion: the same ones, and the inserted key where it was new. -/
theorem keys_mapInsert (m : List (Key × Pattern)) (k : Key) (p : Pattern) :
    (mapInsert m k p).map Prod.fst =
      if k ∈ m.map Prod.fst then m.map Prod.fst else m.map Prod.fst ++ [k] := by
  induction m with
  | nil => simp [mapInsert]
  | cons kp m ih =>
    by_cases hk : kp.1 = k
    · simp [mapInsert, hk]
    · have hk' : ¬ k = kp.1 := fun h => hk h.symm
      simp only [mapInsert, hk, if_false, List.map_cons, ih, List.mem_cons, hk', false_or]
      split <;> simp

/-! ### decode, entry by entry -/

theorem decode_nil (raw : Raw) :
    decode [] raw = .unknown raw [⟨.opFrag, (asNibbles raw).toList⟩] := rfl

theorem decode_cons_hit {e : Entry} {d : Dispatcher} {raw : Raw} {p : Pattern}
    (h : lookup e.map (project e (asNibbles raw)) = some p) :
    decode (e :: d) raw = .known raw p (build e.builder (asNibbles raw).toList) := by
  simp [decode, h]

theorem decode_cons_miss {e : Entry} {d : Dispatcher} {raw : Raw}
    (h : lookup e.map (project e (asNibbles raw)) = none) : decode (e :: d) raw = decode d raw := by
  simp [decode, h]

theorem shapeHit_cons_hit {e : Entry} {d : Dispatcher} {raw : Raw} {p : Pattern}
    (h : lookup e.map (project e (asNibbles raw)) = some p) : shapeHit (e :: d) raw = some 0 := by
  simp [shapeHit, h]

theorem shapeHit_cons_miss {e : Entry} {d : Dispatcher} {raw : Raw}
    (h : lookup e.map (project e (asNibbles raw)) = none) :
    shapeHit (e :: d) raw = (shapeHit d raw).map (· + 1) := by
  simp [shapeHit, h]

/-! ### Compilation, row by row -/

theorem compileFrom_cons_ok {idx : Nat} {d d' : Dispatcher} {row : String × String} {rest : Table}
    {p : Pattern} (hp : compilePattern row.1 row.2 idx = .ok p) (hr : registerPattern d p = .ok d') :
    compileFrom idx d (row :: rest) = compileFrom (idx + 1) d' rest := by
  simp [compileFrom, hp, hr]

/-- What a compilation that succeeds did with its first row. -/
theorem compileFrom_cons_inv {idx : Nat} {d d' : Dispatcher} {row : String × String} {rest : Table}
    (h : compileFrom idx d (row :: rest) = .ok d') :
    ∃ p e, compilePattern row.1 row.2 idx = .ok p ∧ registerPattern d p = .ok e ∧
      compileFrom (idx + 1) e rest = .ok d' := by
  match hp : compilePattern row.1 row.2 idx with
  | .error f => simp [compileFrom, hp] at h
  | .ok p =>
    match hr : registerPattern d p with
    | .error f => simp [compileFrom, hp, hr] at h
    | .ok e => exact ⟨p, e, rfl, hr, by simpa [compileFrom, hp, hr] using h⟩

end Sys2Proof.Machine
end

