-- ==== Sys2Proof/Laws/Encoding.lean ====
section
/-! SUPPORT. Words as four nibbles: the value of four joined nibbles, and a row's masked compare position by
position, so that a proof about a word never works on sixteen bits at once. -/

namespace Sys2Proof.Machine

/-- The word with these nibbles, most significant first. -/
def joinNibbles (a b c d : Nibble) : Word := a ++ b ++ c ++ d

theorem toNat_joinNibbles (a b c d : Nibble) :
    (joinNibbles a b c d).toNat =
      a.toNat * 4096 + b.toNat * 256 + c.toNat * 16 + d.toNat := by
  have h1 := BitVec.toNat_append (a ++ b ++ c) d
  have h2 := BitVec.toNat_append (a ++ b) c
  have h3 := BitVec.toNat_append a b
  rw [← Nat.shiftLeft_add_eq_or_of_lt d.isLt, Nat.shiftLeft_eq] at h1
  rw [← Nat.shiftLeft_add_eq_or_of_lt c.isLt, Nat.shiftLeft_eq] at h2
  rw [← Nat.shiftLeft_add_eq_or_of_lt b.isLt, Nat.shiftLeft_eq] at h3
  have h : (joinNibbles a b c d).toNat = (a ++ b ++ c ++ d).toNat := rfl
  omega

/-- Every word is four joined nibbles. -/
theorem exists_joinNibbles (w : Word) :
    joinNibbles (w.extractLsb' 12 4) (w.extractLsb' 8 4) (w.extractLsb' 4 4) (w.extractLsb' 0 4) =
      w := by
  apply BitVec.eq_of_toNat_eq
  rw [toNat_joinNibbles]
  simp only [BitVec.extractLsb'_toNat, Nat.shiftRight_eq_div_pow]
  omega

theorem joinNibbles_inj (a b c d a' b' c' d' : Nibble) :
    joinNibbles a b c d = joinNibbles a' b' c' d' ↔ a = a' ∧ b = b' ∧ c = c' ∧ d = d' := by
  constructor
  · intro h
    have h := congrArg BitVec.toNat h
    rw [toNat_joinNibbles, toNat_joinNibbles] at h
    refine ⟨?_, ?_, ?_, ?_⟩ <;> apply BitVec.eq_of_toNat_eq <;> omega
  · rintro ⟨rfl, rfl, rfl, rfl⟩
    rfl

theorem joinNibbles_and (a b c d a' b' c' d' : Nibble) :
    joinNibbles a b c d &&& joinNibbles a' b' c' d' =
      joinNibbles (a &&& a') (b &&& b') (c &&& c') (d &&& d') := by
  have h1 := BitVec.and_append (x₁ := a ++ b ++ c) (x₂ := a' ++ b' ++ c') (y₁ := d) (y₂ := d')
  have h2 := BitVec.and_append (x₁ := a ++ b) (x₂ := a' ++ b') (y₁ := c) (y₂ := c')
  have h3 := BitVec.and_append (x₁ := a) (x₂ := a') (y₁ := b) (y₂ := b')
  rw [h2, h3] at h1
  exact h1

/-- A masked compare against a word of known nibbles, position by position. -/
theorem masked_joinNibbles (a b c d : Nibble) (m v : Word) :
    joinNibbles a b c d &&& m = v ↔
      a &&& m.extractLsb' 12 4 = v.extractLsb' 12 4 ∧ b &&& m.extractLsb' 8 4 = v.extractLsb' 8 4 ∧
        c &&& m.extractLsb' 4 4 = v.extractLsb' 4 4 ∧ d &&& m.extractLsb' 0 4 = v.extractLsb' 0 4 := by
  rw [← exists_joinNibbles m, ← exists_joinNibbles v, joinNibbles_and, joinNibbles_inj,
    exists_joinNibbles m, exists_joinNibbles v]

theorem hits_joinNibbles (r : EncRow) (a b c d : Nibble) :
    r.hits (joinNibbles a b c d) =
      decide (a &&& r.mask.extractLsb' 12 4 = r.value.extractLsb' 12 4 ∧
        b &&& r.mask.extractLsb' 8 4 = r.value.extractLsb' 8 4 ∧
        c &&& r.mask.extractLsb' 4 4 = r.value.extractLsb' 4 4 ∧
        d &&& r.mask.extractLsb' 0 4 = r.value.extractLsb' 0 4) := by
  have h := masked_joinNibbles a b c d r.mask r.value
  rw [EncRow.hits, Bool.eq_iff_iff, beq_iff_eq, decide_eq_true_iff]
  exact h

/-- `op X Y N` and `op X Y op` words. -/
theorem append_nibbles (a b c d : Nibble) : (a ++ b ++ c ++ d : Word) = joinNibbles a b c d := rfl

/-- `op X NN` and `op X op op` words. -/
theorem append_byte (a b : Nibble) (e : BitVec 8) :
    (a ++ b ++ e : Word) = joinNibbles a b (highNibble e) (lowNibble e) := by
  apply BitVec.eq_of_toNat_eq
  have h1 := BitVec.toNat_append (a ++ b) e
  have h3 := BitVec.toNat_append a b
  rw [← Nat.shiftLeft_add_eq_or_of_lt e.isLt, Nat.shiftLeft_eq] at h1
  rw [← Nat.shiftLeft_add_eq_or_of_lt b.isLt, Nat.shiftLeft_eq] at h3
  rw [toNat_joinNibbles, toNat_highNibble, toNat_lowNibble]
  refine h1.trans ?_
  omega

/-- `op NNN` words. -/
theorem append_constant12 (a : Nibble) (e : BitVec 12) :
    (a ++ e : Word) =
      joinNibbles a (e.extractLsb' 8 4) (e.extractLsb' 4 4) (e.extractLsb' 0 4) := by
  apply BitVec.eq_of_toNat_eq
  have h1 := BitVec.toNat_append a e
  rw [← Nat.shiftLeft_add_eq_or_of_lt e.isLt, Nat.shiftLeft_eq] at h1
  rw [toNat_joinNibbles]
  simp only [BitVec.extractLsb'_toNat, Nat.shiftRight_eq_div_pow]
  refine h1.trans ?_
  have := e.isLt
  omega

end Sys2Proof.Machine
end

