-- ==== Sys2Proof/Laws/PerInstr.lean ====
section
/-! SUPPORT. The family RowMatch: for each instruction as syntax, the first row of the encoding table that
its word matches is its own row; the fallback's word matches none. -/

namespace Sys2Proof.Laws.RowMatch

open Sys2Proof.Machine

/-- The mnemonic of an instruction's row in the encoding table; the fallback has no row. -/
def rowName : Instr → Option String
  | .clear => some "CLEAR"
  | .ret => some "RETURN"
  | .goto _ => some "GOTO"
  | .call _ => some "CALL"
  | .sieq _ _ => some "SIEQ"
  | .sine _ _ => some "SINE"
  | .sreq _ _ => some "SREQ"
  | .setr _ _ => some "SETR"
  | .addi _ _ => some "ADDI"
  | .copy _ _ => some "COPY"
  | .or _ _ => some "OR"
  | .and _ _ => some "AND"
  | .xor _ _ => some "XOR"
  | .add _ _ => some "ADD"
  | .sub _ _ => some "SUB"
  | .shiftr _ _ => some "SHIFTR"
  | .subn _ _ => some "SUB-"
  | .shiftl _ _ => some "SHIFTL"
  | .srne _ _ => some "SRNE"
  | .seti _ => some "SETI"
  | .jumpr _ => some "JUMPR"
  | .rand _ _ => some "RAND"
  | .draw _ _ _ => some "DRAW"
  | .skpr _ => some "SKPR"
  | .sknp _ => some "SKNP"
  | .rdel _ => some "RDEL"
  | .key _ => some "KEY"
  | .tdel _ => some "TDEL"
  | .tsnd _ => some "TSND"
  | .iadd _ => some "IADD"
  | .char _ => some "CHAR"
  | .dec _ => some "DEC"
  | .dump _ => some "DUMP"
  | .load _ => some "LOAD"
  | .unknown _ => none

/-- The row that a well-formed instruction's word matches first is its own. -/
def Statement (i : Instr) : Prop :=
  i.WellFormed → (encTable.find? fun r => r.hits (encodeWord i)).map EncRow.mnemonic = rowName i

/-- The search through the table, position by position, for a word of known nibbles. -/
theorem find_of_nibbles {i : Instr} {a b c d : Nibble}
    (hw : encodeWord i = joinNibbles a b c d)
    (h : (encTable.find? fun r =>
      decide (a &&& r.mask.extractLsb' 12 4 = r.value.extractLsb' 12 4 ∧
        b &&& r.mask.extractLsb' 8 4 = r.value.extractLsb' 8 4 ∧
        c &&& r.mask.extractLsb' 4 4 = r.value.extractLsb' 4 4 ∧
        d &&& r.mask.extractLsb' 0 4 = r.value.extractLsb' 0 4)).map EncRow.mnemonic = rowName i) :
    Statement i := by
  intro _
  simp only [hw, hits_joinNibbles]
  exact h

/-- The fallback's word matches no row, by its well-formedness. -/
theorem of_unknown (w : Word) : Statement (.unknown w) := by
  intro h
  have h : (encTable.any fun r => r.hits w) = false := by
    simpa [Instr.WellFormed, Instr.wellFormed] using h
  have : (encTable.find? fun r => r.hits w) = none := by
    rw [List.find?_eq_none]
    intro r hr
    simpa using List.any_eq_false.mp h r hr
  simp [encodeWord, rowName, this]

/-- The search, format by format; the lemmas below name its cases. -/
theorem of_instr (i : Instr) : Statement i := by
  cases i
  case unknown w => exact of_unknown w
  case clear => exact fun _ => by decide
  case ret => exact fun _ => by decide
  case goto | call | seti | jumpr =>
    refine find_of_nibbles (append_constant12 _ _) ?_
    simp [rowName, encTable, encRowsS0, encRowsS1, encRowsS2, encRowsS3, encRowsS4, encRowsS5]
  case sieq | sine | setr | addi | rand =>
    refine find_of_nibbles (append_byte _ _ _) ?_
    simp [rowName, encTable, encRowsS0, encRowsS1, encRowsS2, encRowsS3, encRowsS4, encRowsS5]
  case sreq | copy | or | and | xor | add | sub | shiftr | subn | shiftl | srne =>
    refine find_of_nibbles (append_nibbles _ _ _ _) ?_
    simp [rowName, encTable, encRowsS0, encRowsS1, encRowsS2, encRowsS3, encRowsS4, encRowsS5]
  case draw =>
    refine find_of_nibbles (append_nibbles _ _ _ _) ?_
    simp [rowName, encTable, encRowsS0, encRowsS1, encRowsS2, encRowsS3, encRowsS4, encRowsS5]
  case skpr | sknp | rdel | key | tdel | tsnd | iadd | char | dec | dump | load =>
    refine find_of_nibbles (append_byte _ _ _) ?_
    simp [rowName, encTable, encRowsS0, encRowsS1, encRowsS2, encRowsS3, encRowsS4, encRowsS5,
      highNibble, lowNibble]

theorem clear : Statement (.clear) := of_instr _

theorem ret : Statement (.ret) := of_instr _

theorem goto (nnn : BitVec 12) : Statement (.goto nnn) := of_instr _

theorem call (nnn : BitVec 12) : Statement (.call nnn) := of_instr _

theorem sieq (x : Nibble) (nn : BitVec 8) : Statement (.sieq x nn) := of_instr _

theorem sine (x : Nibble) (nn : BitVec 8) : Statement (.sine x nn) := of_instr _

theorem sreq (x y : Nibble) : Statement (.sreq x y) := of_instr _

theorem setr (x : Nibble) (nn : BitVec 8) : Statement (.setr x nn) := of_instr _

theorem addi (x : Nibble) (nn : BitVec 8) : Statement (.addi x nn) := of_instr _

theorem copy (x y : Nibble) : Statement (.copy x y) := of_instr _

theorem or (x y : Nibble) : Statement (.or x y) := of_instr _

theorem and (x y : Nibble) : Statement (.and x y) := of_instr _

theorem xor (x y : Nibble) : Statement (.xor x y) := of_instr _

theorem add (x y : Nibble) : Statement (.add x y) := of_instr _

theorem sub (x y : Nibble) : Statement (.sub x y) := of_instr _

theorem shiftr (x y : Nibble) : Statement (.shiftr x y) := of_instr _

theorem subn (x y : Nibble) : Statement (.subn x y) := of_instr _

theorem shiftl (x y : Nibble) : Statement (.shiftl x y) := of_instr _

theorem srne (x y : Nibble) : Statement (.srne x y) := of_instr _

theorem seti (nnn : BitVec 12) : Statement (.seti nnn) := of_instr _

theorem jumpr (nnn : BitVec 12) : Statement (.jumpr nnn) := of_instr _

theorem rand (x : Nibble) (nn : BitVec 8) : Statement (.rand x nn) := of_instr _

theorem draw (x y n : Nibble) : Statement (.draw x y n) := of_instr _

theorem skpr (x : Nibble) : Statement (.skpr x) := of_instr _

theorem sknp (x : Nibble) : Statement (.sknp x) := of_instr _

theorem rdel (x : Nibble) : Statement (.rdel x) := of_instr _

theorem key (x : Nibble) : Statement (.key x) := of_instr _

theorem tdel (x : Nibble) : Statement (.tdel x) := of_instr _

theorem tsnd (x : Nibble) : Statement (.tsnd x) := of_instr _

theorem iadd (x : Nibble) : Statement (.iadd x) := of_instr _

theorem char (x : Nibble) : Statement (.char x) := of_instr _

theorem dec (x : Nibble) : Statement (.dec x) := of_instr _

theorem dump (x : Nibble) : Statement (.dump x) := of_instr _

theorem load (x : Nibble) : Statement (.load x) := of_instr _

theorem unknown (w : Word) : Statement (.unknown w) := of_instr _

end Sys2Proof.Laws.RowMatch
end

