-- ==== Sys2Proof/Tests/Slice0.lean ====
section
/-! SUPPORT. The model's own tests. Expected values come from the spec: the Encoding and Example lines of
R150 to R210, the vectors of 95_test_vectors.md, and the document's worked examples. The last part
shows, for each statement with hypotheses, values that meet them together. -/

namespace Sys2Proof.Tests

open Sys2Proof.Machine Sys2Proof.Claims

/-! ### WellFormed refuses an ill-formed term -/

/-- R210: `0x6A12` matches row 7, so it is no fallback word. -/
theorem test_wellFormed_refuses_known_word : (Instr.unknown 0x6A12).wellFormed = false := by decide

theorem test_wellFormed_accepts_fallback : (Instr.unknown 0x0999).wellFormed = true := by decide

theorem test_wellFormed_accepts_setr : (Instr.setr 0xA 0x12).wellFormed = true := by decide

/-! ### Decoding: every constructor from a word written out from its Encoding line and Example -/

/-- The patterns without operand (format S0). -/
theorem test_decode_S0 :
    ∀ c ∈ ([ (0b0000000011100000, .clear),
        (0b0000000011101110, .ret) ] : List (Word × Instr)),
      decodeWord c.1 = c.2 ∧ encodeWord c.2 = c.1 := by decide

/-- The patterns with a 12-bit constant (format S1). -/
theorem test_decode_S1 :
    ∀ c ∈ ([ (0b0001001000110100, .goto 0x234),
        (0b0010101010111100, .call 0xabc),
        (0b1010001011110000, .seti 0x2f0),
        (0b1011001100000000, .jumpr 0x300) ] : List (Word × Instr)),
      decodeWord c.1 = c.2 ∧ encodeWord c.2 = c.1 := by decide

/-- The patterns with a register and a byte (format S2). -/
theorem test_decode_S2 :
    ∀ c ∈ ([ (0b0011101000010010, .sieq 0xa 0x12),
        (0b0100101100000000, .sine 0xb 0x00),
        (0b0110101000010010, .setr 0xa 0x12),
        (0b0111001100000001, .addi 0x3 0x01),
        (0b1100000100001111, .rand 0x1 0x0f) ] : List (Word × Instr)),
      decodeWord c.1 = c.2 ∧ encodeWord c.2 = c.1 := by decide

/-- The patterns with two registers (format S3). -/
theorem test_decode_S3 :
    ∀ c ∈ ([ (0b0101000100100000, .sreq 0x1 0x2),
        (0b1000000100100000, .copy 0x1 0x2),
        (0b1000000100100001, .or 0x1 0x2),
        (0b1000000100100010, .and 0x1 0x2),
        (0b1000000100100011, .xor 0x1 0x2),
        (0b1000000100100100, .add 0x1 0x2),
        (0b1000000100100101, .sub 0x1 0x2),
        (0b1000000100100110, .shiftr 0x1 0x2),
        (0b1000000100100111, .subn 0x1 0x2),
        (0b1000000100101110, .shiftl 0x1 0x2),
        (0b1001000100100000, .srne 0x1 0x2) ] : List (Word × Instr)),
      decodeWord c.1 = c.2 ∧ encodeWord c.2 = c.1 := by decide

/-- The pattern `DRAW` (format S4). -/
theorem test_decode_S4 :
    ∀ c ∈ ([ (0b1101000100100101, .draw 0x1 0x2 0x5) ] : List (Word × Instr)),
      decodeWord c.1 = c.2 ∧ encodeWord c.2 = c.1 := by decide

/-- The patterns with a register (format S5). -/
theorem test_decode_S5 :
    ∀ c ∈ ([ (0b1110001110011110, .skpr 0x3),
        (0b1110001110100001, .sknp 0x3),
        (0b1111001100000111, .rdel 0x3),
        (0b1111001100001010, .key 0x3),
        (0b1111001100010101, .tdel 0x3),
        (0b1111001100011000, .tsnd 0x3),
        (0b1111001100011110, .iadd 0x3),
        (0b1111001100101001, .char 0x3),
        (0b1111001100110011, .dec 0x3),
        (0b1111001101010101, .dump 0x3),
        (0b1111001101100101, .load 0x3) ] : List (Word × Instr)),
      decodeWord c.1 = c.2 ∧ encodeWord c.2 = c.1 := by decide

/-- R210, X11, X17, X31: words no row matches read as the fallback. -/
theorem test_decode_unknown :
    ([0x0000, 0x00E1, 0x0999, 0x8008, 0x9001, 0x5001, 0xE09F, 0xF000, 0xFFFF].map decodeWord) =
      [0x0000, 0x00E1, 0x0999, 0x8008, 0x9001, 0x5001, 0xE09F, 0xF000, 0xFFFF].map .unknown := by decide

theorem test_decode_dangling_byte : decodeBytes [0x6A] = .error (.danglingByte 0x6A) := by decide

theorem test_decode_table_word : decodeTableWord 16 0x6A12 = some (.setr 0xA 0x12) := by decide

/-- R70: a byte, or seventeen bits, are no instruction. -/
theorem test_decode_table_word_lengths :
    decodeTableWord 8 0xE0 = none ∧ decodeTableWord 0 0 = none ∧ decodeTableWord 15 0x6A12 = none ∧
      decodeTableWord 17 0x6A12 = none := by decide

/-! ### One step on each row -/

/-- The state after one step on the word `w` from reset, if the step goes on. -/
def after (w : Nat) : Option State :=
  match step (State.reset.withFetchWord 16 w) with
  | .next t => some t
  | .fault _ => none
  | .refused _ => none

/-- The ports after one step on `w`. -/
def portsAfter (w : Nat) : Option Ports := (after w).map State.ports

/-- The text line after one step on `w`. -/
def lineAfter (w : Nat) : Option String := ((after w).bind State.result).map render

/-- Section 2.4, one vector of each row of format S0. -/
theorem test_ports_S0 :
    ∀ c ∈ ([ (0x00E0, hitPorts 0 0 1 ⟨0, 0, 4, 0x00E0⟩ noSlot noSlot noSlot),
        (0x00EE, hitPorts 0 1 1 ⟨0, 0, 4, 0x00EE⟩ noSlot noSlot noSlot) ] :
        List (Nat × Ports)), portsAfter c.1 = some c.2 := by decide

theorem test_lines_S0 :
    ∀ c ∈ ([ (0x00E0, "CLEAR"),
        (0x00EE, "RETURN") ] :
        List (Nat × String)), lineAfter c.1 = some c.2 := by decide

/-- Section 2.4, one vector of each row of format S1. -/
theorem test_ports_S1 :
    ∀ c ∈ ([ (0x1A5C, hitPorts 1 2 2 ⟨0, 0, 1, 0x0001⟩ ⟨2, 1, 3, 0x0A5C⟩ noSlot noSlot),
        (0x2A5C, hitPorts 1 3 2 ⟨0, 0, 1, 0x0002⟩ ⟨2, 1, 3, 0x0A5C⟩ noSlot noSlot),
        (0xAA5C, hitPorts 1 19 2 ⟨0, 0, 1, 0x000A⟩ ⟨2, 1, 3, 0x0A5C⟩ noSlot noSlot),
        (0xBA5C, hitPorts 1 20 2 ⟨0, 0, 1, 0x000B⟩ ⟨2, 1, 3, 0x0A5C⟩ noSlot noSlot) ] :
        List (Nat × Ports)), portsAfter c.1 = some c.2 := by decide

theorem test_lines_S1 :
    ∀ c ∈ ([ (0x1A5C, "GOTO 0xA5C"),
        (0x1FFF, "GOTO 0xFFF"),
        (0x2A5C, "CALL 0xA5C"),
        (0x2FFF, "CALL 0xFFF"),
        (0xAA5C, "SETI 0xA5C"),
        (0xAFFF, "SETI 0xFFF"),
        (0xBA5C, "JUMPR 0xA5C"),
        (0xBFFF, "JUMPR 0xFFF") ] :
        List (Nat × String)), lineAfter c.1 = some c.2 := by decide

/-- Section 2.4, one vector of each row of format S2. -/
theorem test_ports_S2 :
    ∀ c ∈ ([ (0x33A5, hitPorts 2 4 3 ⟨0, 0, 1, 0x0003⟩ ⟨1, 1, 1, 0x0003⟩ ⟨2, 2, 2, 0x00A5⟩ noSlot),
        (0x43A5, hitPorts 2 5 3 ⟨0, 0, 1, 0x0004⟩ ⟨1, 1, 1, 0x0003⟩ ⟨2, 2, 2, 0x00A5⟩ noSlot),
        (0x63A5, hitPorts 2 7 3 ⟨0, 0, 1, 0x0006⟩ ⟨1, 1, 1, 0x0003⟩ ⟨2, 2, 2, 0x00A5⟩ noSlot),
        (0x73A5, hitPorts 2 8 3 ⟨0, 0, 1, 0x0007⟩ ⟨1, 1, 1, 0x0003⟩ ⟨2, 2, 2, 0x00A5⟩ noSlot),
        (0xC3A5, hitPorts 2 21 3 ⟨0, 0, 1, 0x000C⟩ ⟨1, 1, 1, 0x0003⟩ ⟨2, 2, 2, 0x00A5⟩ noSlot) ] :
        List (Nat × Ports)), portsAfter c.1 = some c.2 := by decide

theorem test_lines_S2 :
    ∀ c ∈ ([ (0x33A5, "SIEQ V3 0xA5"),
        (0x3FFF, "SIEQ VF 0xFF"),
        (0x43A5, "SINE V3 0xA5"),
        (0x4FFF, "SINE VF 0xFF"),
        (0x63A5, "SETR V3 0xA5"),
        (0x6FFF, "SETR VF 0xFF"),
        (0x73A5, "ADDI V3 0xA5"),
        (0x7FFF, "ADDI VF 0xFF"),
        (0xC3A5, "RAND V3 0xA5"),
        (0xCFFF, "RAND VF 0xFF") ] :
        List (Nat × String)), lineAfter c.1 = some c.2 := by decide

/-- Section 2.4, one vector of each row of format S3. -/
theorem test_ports_S3 :
    ∀ c ∈ ([ (0x53B0, hitPorts 3 6 4 ⟨0, 0, 1, 0x0005⟩ ⟨1, 1, 1, 0x0003⟩ ⟨1, 2, 1, 0x000B⟩ ⟨0, 3, 1, 0x0000⟩),
        (0x83B0, hitPorts 3 9 4 ⟨0, 0, 1, 0x0008⟩ ⟨1, 1, 1, 0x0003⟩ ⟨1, 2, 1, 0x000B⟩ ⟨0, 3, 1, 0x0000⟩),
        (0x83B1, hitPorts 3 10 4 ⟨0, 0, 1, 0x0008⟩ ⟨1, 1, 1, 0x0003⟩ ⟨1, 2, 1, 0x000B⟩ ⟨0, 3, 1, 0x0001⟩),
        (0x83B2, hitPorts 3 11 4 ⟨0, 0, 1, 0x0008⟩ ⟨1, 1, 1, 0x0003⟩ ⟨1, 2, 1, 0x000B⟩ ⟨0, 3, 1, 0x0002⟩),
        (0x83B3, hitPorts 3 12 4 ⟨0, 0, 1, 0x0008⟩ ⟨1, 1, 1, 0x0003⟩ ⟨1, 2, 1, 0x000B⟩ ⟨0, 3, 1, 0x0003⟩),
        (0x83B4, hitPorts 3 13 4 ⟨0, 0, 1, 0x0008⟩ ⟨1, 1, 1, 0x0003⟩ ⟨1, 2, 1, 0x000B⟩ ⟨0, 3, 1, 0x0004⟩),
        (0x83B5, hitPorts 3 14 4 ⟨0, 0, 1, 0x0008⟩ ⟨1, 1, 1, 0x0003⟩ ⟨1, 2, 1, 0x000B⟩ ⟨0, 3, 1, 0x0005⟩),
        (0x83B6, hitPorts 3 15 4 ⟨0, 0, 1, 0x0008⟩ ⟨1, 1, 1, 0x0003⟩ ⟨1, 2, 1, 0x000B⟩ ⟨0, 3, 1, 0x0006⟩),
        (0x83B7, hitPorts 3 16 4 ⟨0, 0, 1, 0x0008⟩ ⟨1, 1, 1, 0x0003⟩ ⟨1, 2, 1, 0x000B⟩ ⟨0, 3, 1, 0x0007⟩),
        (0x83BE, hitPorts 3 17 4 ⟨0, 0, 1, 0x0008⟩ ⟨1, 1, 1, 0x0003⟩ ⟨1, 2, 1, 0x000B⟩ ⟨0, 3, 1, 0x000E⟩),
        (0x93B0, hitPorts 3 18 4 ⟨0, 0, 1, 0x0009⟩ ⟨1, 1, 1, 0x0003⟩ ⟨1, 2, 1, 0x000B⟩ ⟨0, 3, 1, 0x0000⟩) ] :
        List (Nat × Ports)), portsAfter c.1 = some c.2 := by decide

theorem test_lines_S3 :
    ∀ c ∈ ([ (0x53B0, "SREQ V3 VB"),
        (0x5FF0, "SREQ VF VF"),
        (0x83B0, "COPY V3 VB"),
        (0x8FF0, "COPY VF VF"),
        (0x83B1, "OR V3 VB"),
        (0x8FF1, "OR VF VF"),
        (0x83B2, "AND V3 VB"),
        (0x8FF2, "AND VF VF"),
        (0x83B3, "XOR V3 VB"),
        (0x8FF3, "XOR VF VF"),
        (0x83B4, "ADD V3 VB"),
        (0x8FF4, "ADD VF VF"),
        (0x83B5, "SUB V3 VB"),
        (0x8FF5, "SUB VF VF"),
        (0x83B6, "SHIFTR V3 VB"),
        (0x8FF6, "SHIFTR VF VF"),
        (0x83B7, "SUB- V3 VB"),
        (0x8FF7, "SUB- VF VF"),
        (0x83BE, "SHIFTL V3 VB"),
        (0x8FFE, "SHIFTL VF VF"),
        (0x93B0, "SRNE V3 VB"),
        (0x9FF0, "SRNE VF VF") ] :
        List (Nat × String)), lineAfter c.1 = some c.2 := by decide

/-- Section 2.4, one vector of each row of format S4. -/
theorem test_ports_S4 :
    ∀ c ∈ ([ (0xD3BA, hitPorts 4 22 4 ⟨0, 0, 1, 0x000D⟩ ⟨1, 1, 1, 0x0003⟩ ⟨1, 2, 1, 0x000B⟩ ⟨2, 3, 1, 0x000A⟩) ] :
        List (Nat × Ports)), portsAfter c.1 = some c.2 := by decide

theorem test_lines_S4 :
    ∀ c ∈ ([ (0xD3BA, "DRAW V3 VB 0xA"),
        (0xDFFF, "DRAW VF VF 0xF") ] :
        List (Nat × String)), lineAfter c.1 = some c.2 := by decide

/-- Section 2.4, one vector of each row of format S5. -/
theorem test_ports_S5 :
    ∀ c ∈ ([ (0xE39E, hitPorts 5 23 3 ⟨0, 0, 1, 0x000E⟩ ⟨1, 1, 1, 0x0003⟩ ⟨0, 2, 2, 0x009E⟩ noSlot),
        (0xE3A1, hitPorts 5 24 3 ⟨0, 0, 1, 0x000E⟩ ⟨1, 1, 1, 0x0003⟩ ⟨0, 2, 2, 0x00A1⟩ noSlot),
        (0xF307, hitPorts 5 25 3 ⟨0, 0, 1, 0x000F⟩ ⟨1, 1, 1, 0x0003⟩ ⟨0, 2, 2, 0x0007⟩ noSlot),
        (0xF30A, hitPorts 5 26 3 ⟨0, 0, 1, 0x000F⟩ ⟨1, 1, 1, 0x0003⟩ ⟨0, 2, 2, 0x000A⟩ noSlot),
        (0xF315, hitPorts 5 27 3 ⟨0, 0, 1, 0x000F⟩ ⟨1, 1, 1, 0x0003⟩ ⟨0, 2, 2, 0x0015⟩ noSlot),
        (0xF318, hitPorts 5 28 3 ⟨0, 0, 1, 0x000F⟩ ⟨1, 1, 1, 0x0003⟩ ⟨0, 2, 2, 0x0018⟩ noSlot),
        (0xF31E, hitPorts 5 29 3 ⟨0, 0, 1, 0x000F⟩ ⟨1, 1, 1, 0x0003⟩ ⟨0, 2, 2, 0x001E⟩ noSlot),
        (0xF329, hitPorts 5 30 3 ⟨0, 0, 1, 0x000F⟩ ⟨1, 1, 1, 0x0003⟩ ⟨0, 2, 2, 0x0029⟩ noSlot),
        (0xF333, hitPorts 5 31 3 ⟨0, 0, 1, 0x000F⟩ ⟨1, 1, 1, 0x0003⟩ ⟨0, 2, 2, 0x0033⟩ noSlot),
        (0xF355, hitPorts 5 32 3 ⟨0, 0, 1, 0x000F⟩ ⟨1, 1, 1, 0x0003⟩ ⟨0, 2, 2, 0x0055⟩ noSlot),
        (0xF365, hitPorts 5 33 3 ⟨0, 0, 1, 0x000F⟩ ⟨1, 1, 1, 0x0003⟩ ⟨0, 2, 2, 0x0065⟩ noSlot) ] :
        List (Nat × Ports)), portsAfter c.1 = some c.2 := by decide

theorem test_lines_S5 :
    ∀ c ∈ ([ (0xE39E, "SKPR V3"),
        (0xEF9E, "SKPR VF"),
        (0xE3A1, "SKNP V3"),
        (0xEFA1, "SKNP VF"),
        (0xF307, "RDEL V3"),
        (0xFF07, "RDEL VF"),
        (0xF30A, "KEY V3"),
        (0xFF0A, "KEY VF"),
        (0xF315, "TDEL V3"),
        (0xFF15, "TDEL VF"),
        (0xF318, "TSND V3"),
        (0xFF18, "TSND VF"),
        (0xF31E, "IADD V3"),
        (0xFF1E, "IADD VF"),
        (0xF329, "CHAR V3"),
        (0xFF29, "CHAR VF"),
        (0xF333, "DEC V3"),
        (0xFF33, "DEC VF"),
        (0xF355, "DUMP V3"),
        (0xFF55, "DUMP VF"),
        (0xF365, "LOAD V3"),
        (0xFF65, "LOAD VF") ] :
        List (Nat × String)), lineAfter c.1 = some c.2 := by decide

/-- Vectors X1, X5, X12, X29. -/
theorem test_lines_unknown :
    ∀ c ∈ ([ (0x0000, "UNKNOWN 0x0000"), (0x00EF, "UNKNOWN 0x00EF"), (0x812D, "UNKNOWN 0x812D"),
        (0xF075, "UNKNOWN 0xF075") ] : List (Nat × String)), lineAfter c.1 = some c.2 := by decide

/-- Vector X31. -/
theorem test_ports_unknown :
    portsAfter 0xFFFF = some
      { hitO := false, unknownO := true, diagO := true, shapeO := 7, opcodeO := 63, nsymO := 1,
        slot0 := ⟨0, 0, 4, 0xFFFF⟩, slot1 := noSlot, slot2 := noSlot, slot3 := noSlot } := by decide

/-! ### Build time, codec and streams -/

/-- Vectors A7, A12, A15. -/
theorem test_nibblesToInt :
    nibblesToInt [0] = 0 ∧ nibblesToInt [2, 3, 4] = 564 ∧ nibblesToInt [15, 15, 15, 15] = 65535 := by
  decide

/-- Vectors A16, A19, A22. -/
theorem test_nibblesToHex :
    nibblesToHex [] = "0x" ∧ nibblesToHex [0, 10] = "0x0A" ∧ nibblesToHex [0, 0, 14, 0] = "0x00E0" := by
  decide

/-- Vectors A24, A25, A27. -/
theorem test_rawFromBytes :
    rawFromBytes [0x12, 0x6A] = .ok ⟨0x12, 0x6A⟩ ∧
      rawFromBytes [] = .error (.malformedRawInstruction 0) ∧
      rawFromBytes [0x6A, 0x12, 0x00] = .error (.malformedRawInstruction 3) := by decide

/-- Vectors B9 to B17: each is refused as malformed. -/
theorem test_malformed_patterns :
    ∀ p ∈ (["", "1NN", "1NNNN", "6xNN", "00e0", "6_NN", "8XYZ", "1 NN", "GNNN"] : List String),
      compilePattern p "m" 0 = .error (.malformedPattern p) := by decide

/-- Vectors B24 and B36. -/
theorem test_builders :
    deriveBuilder ⟨.placeholder, .placeholder, .pat (.sym .Y), .pat (.sym .N)⟩ =
        [⟨.opFrag, 2⟩, ⟨.register, 1⟩, ⟨.constant, 1⟩] ∧
      checkRuns (deriveBuilder ⟨.placeholder, .pat (.sym .X), .pat (.sym .X), .pat (.sym .N)⟩) =
        .error (.unsupportedRun .register 2) := by decide

/-- Vectors B45 and B46: the first failing row is the one reported. -/
theorem test_first_failing_row :
    compileDispatcher [("00E0", "CLEAR"), ("5XX0", "BAD"), ("6xNN", "WORSE")] =
        .error (.unsupportedRun .register 2) ∧
      compileDispatcher [("00E0", "CLEAR"), ("6xNN", "WORSE"), ("5XX0", "BAD")] =
        .error (.malformedPattern "6xNN") := by decide

/-- The lines a table gives for a stream. -/
def linesUnder (table : Table) (bytes : List Byte) : Option (List String) :=
  match compileDispatcher table with
  | .ok d =>
    match decodeStream d bytes with
    | .ok out => some (renderLines out)
    | .error _ => none
  | .error _ => none

/-- Program P6: shape priority and shadowing under a table that is not the shipped one. -/
theorem test_program_P6 :
    linesUnder [("1NNN", "GOTO"), ("1XNN", "FOO"), ("8XY1", "OR"), ("8XY1", "ORR")]
        [0x12, 0x34, 0x81, 0x21, 0x81, 0x22, 0x00, 0xE0] =
      some ["GOTO 0x234", "ORR V1 V2", "UNKNOWN 0x8122", "UNKNOWN 0x00E0"] := by decide

/-- Program P3: the dangling byte is reported at its offset. -/
theorem test_program_P3 :
    decodeStream shippedDispatchRom [0x6A, 0x12, 0x81, 0x23, 0x00] =
      .error (.incompleteTrailingChunk 4) := by decide

/-- Program P5, second stream: two diagnostics. -/
theorem test_program_P5 :
    (chunkResults shippedDispatchRom [0xFF, 0xFF, 0x6A, 0x12, 0x00, 0x00]).map diagO =
      [true, false, true] := by decide

theorem test_collision_lint :
    ((compilePatterns 0 [("8XY1", "OR"), ("8XY1", "ORR")]).map collisions) = .ok [⟨0, 1⟩] := by decide

/-! ### Values that meet the hypotheses of the statements -/

/-- A state with the shipped ROMs whose reader has these bytes. -/
def reading (bytes : List Byte) : State := { State.reset with stream := bytes }

/-- Two rows of two shapes. -/
def smallTable : Table := [("00E0", "CLEAR"), ("6XNN", "SETR"), ("7XNN", "ADDI")]

/-- PositionalValueIsExact: the largest and the smallest value of a length. -/
theorem witness_PositionalValueIsExact : 4095 < 16 ^ 3 ∧ 0 < 16 ^ 0 := by decide

/-- RawInstructionTakesTwoBytes. -/
theorem witness_RawInstructionTakesTwoBytes :
    ([] : List Byte).length ≠ 2 ∧ ([1, 2, 3] : List Byte).length ≠ 2 := by decide

/-- PatternsCompileExactlyOverTheAlphabet: a pattern of each clause; MasksAndTupleOfAPatternAgree. -/
theorem witness_PatternsCompileExactlyOverTheAlphabet :
    ¬ ("6xNN".toList.length = 4 ∧ ∀ c ∈ "6xNN".toList, c ∈ alphabet) ∧
      ¬ ("1NN".toList.length = 4 ∧ ∀ c ∈ "1NN".toList, c ∈ alphabet) ∧
      "6XNN".toList.length = 4 ∧ ∀ c ∈ "6XNN".toList, c ∈ alphabet := by
  simp [alphabet]

theorem witness_MasksAndTupleOfAPatternAgree :
    compilePattern "6XNN" "SETR" 7 = .ok row7 ∧ compilePattern "00E0" "CLEAR" 0 = .ok row0 := by decide

/-- UnsupportedRunsAreRefused: a register run of 2 and a constant run of 4, and the runs just inside. -/
theorem witness_UnsupportedRunsAreRefused :
    checkRuns [⟨.opFrag, 2⟩, ⟨.register, 2⟩] = .error (.unsupportedRun .register 2) ∧
      checkRuns [⟨.constant, 4⟩] = .error (.unsupportedRun .constant 4) ∧
      checkRuns [⟨.register, 1⟩, ⟨.constant, 3⟩] = .ok () := by decide

/-- LaterRowShadowsEarlier: the added row has the shape and key of the one before it. -/
theorem witness_LaterRowShadowsEarlier :
    (∃ d, compileDispatcher [("8XY1", "OR")] = .ok d) ∧
      (∃ p, compilePattern "8XY1" "ORR" 1 = .ok p) ∧
      ∃ d', compileDispatcher ([("8XY1", "OR")] ++ [("8XY1", "ORR")]) = .ok d' :=
  ⟨⟨_, rfl⟩, ⟨_, rfl⟩, ⟨_, rfl⟩⟩

/-- FirstFailingRowEndsTheBuild: a row that fails to compile, and one that fails to register. -/
theorem witness_FirstFailingRowEndsTheBuild :
    (∃ d, compileDispatcher [("00E0", "CLEAR")] = .ok d ∧
      ∃ p, compilePattern "5XX0" "BAD" 1 = .ok p ∧
        registerPattern d p = .error (.unsupportedRun .register 2)) ∧
      compilePattern "6xNN" "BAD" 1 = .error (.malformedPattern "6xNN") :=
  ⟨⟨_, rfl, _, rfl, by decide⟩, by decide⟩

/-- CompiledDispatchersAreCanonical, ProjectionKeepsFixedNibbles (last clause), LookupIsTheMaskedCompare,
GatesDriveTheSamePorts, SlotsHoldTheSymbols: a table that compiles, with an entry to speak of. -/
theorem witness_CompiledTable :
    ∃ d, compileDispatcher smallTable = .ok d ∧ ∃ e ∈ d, e.map ≠ [] :=
  ⟨_, rfl, _, List.mem_cons_self, by decide⟩

/-- PortsDetermineTheWord. -/
theorem witness_PortsDetermineTheWord :
    ∃ d, compileDispatcher smallTable = .ok d ∧
      ∃ raw raw' : Raw, portsOf d raw = portsOf d raw' :=
  ⟨_, rfl, ⟨0x6A, 0x12⟩, ⟨0x6A, 0x12⟩, rfl⟩

/-- CompilationIsOrderIndependent: a permutation of a table without collisions. -/
theorem witness_CompilationIsOrderIndependent :
    smallTable.Perm [("6XNN", "SETR"), ("7XNN", "ADDI"), ("00E0", "CLEAR")] ∧
      (∃ d, compileDispatcher smallTable = .ok d) ∧
      ∃ ps, compilePatterns 0 smallTable = .ok ps ∧
        ps.Pairwise fun p q => p.collides q = false :=
  ⟨by decide, ⟨_, rfl⟩, _, rfl, by decide⟩

/-- CompilationIsOrderIndependent, the last clause: a word that hits in one shape only. -/
theorem witness_HitsInOneShape :
    ∃ d, compileDispatcher smallTable = .ok d ∧ (∃ e ∈ d, hits e ⟨0x6A, 0x12⟩) ∧
      ∀ e ∈ d, ∀ e' ∈ d, hits e ⟨0x6A, 0x12⟩ → hits e' ⟨0x6A, 0x12⟩ → e = e' :=
  ⟨_, rfl, by unfold hits; decide, by unfold hits; decide⟩

/-- CompiledPatternsMatchTheirLiterals: `0x6A12` agrees with the tuple of row 7, in a compiled table and in
the shipped one. -/
theorem witness_CompiledPatternsMatchTheirLiterals :
    (∃ d, compileDispatcher smallTable = .ok d ∧
      ∃ e ∈ d, ∃ kp ∈ e.map, kp.2.mnemonic = "SETR" ∧ agrees ⟨0x6A, 0x12⟩ kp.2.fixedTuple) ∧
      (∃ e ∈ shippedDispatchRom, ∃ kp ∈ e.map, kp.2 = row7) ∧
      agrees ⟨0x6A, 0x12⟩ row7.fixedTuple :=
  ⟨⟨_, rfl, _, List.mem_cons_of_mem _ List.mem_cons_self, _, List.mem_cons_self, by decide,
      by unfold agrees; decide⟩,
    ⟨_, List.mem_cons_of_mem _ (List.mem_cons_of_mem _ List.mem_cons_self), _,
      List.mem_cons_of_mem _ (List.mem_cons_of_mem _ List.mem_cons_self), rfl⟩,
    by unfold agrees; decide⟩

/-- EmptyTableKnowsNoWord. -/
theorem witness_EmptyTableKnowsNoWord : ({ State.reset with dispatchRom := [] } : State).dispatchRom = [] :=
  rfl

/-- ProjectionKeepsFixedNibbles: the last run of the shape of `8XY1`, at its boundary, and that shape as a
derived builder. -/
theorem witness_ProjectionKeepsFixedNibbles :
    (∃ e ∈ shippedDispatchRom, ∃ q : Quad PatChar,
      e.builder = [⟨.opFrag, 1⟩, ⟨.register, 1⟩, ⟨.register, 1⟩] ++ ⟨.opFrag, 1⟩ :: [] ∧
        totalLen [⟨.opFrag, 1⟩, ⟨.register, 1⟩, ⟨.register, 1⟩] ≤ 3 ∧
        3 < totalLen [⟨.opFrag, 1⟩, ⟨.register, 1⟩, ⟨.register, 1⟩] + 1 ∧
        e.builder = deriveBuilder (q.map variableChar)) :=
  ⟨_, List.mem_cons_of_mem _ (List.mem_cons_of_mem _ (List.mem_cons_of_mem _ List.mem_cons_self)),
    ⟨.hex 8, .sym .X, .sym .Y, .hex 1⟩, by decide, by decide, by decide, by decide⟩

/-- FirstHitInOrderWins, the clause of a word that hits nowhere. -/
theorem witness_FirstHitInOrderWins :
    ∀ e ∈ shippedDispatchRom, lookup e.map (project e (asNibbles ⟨0x09, 0x99⟩)) = none := by decide

/-- ShapeOrderDecidesBetweenShapes: a table of two shapes that compete for `0x1234`, which decodes to the
first row and agrees with both. -/
theorem witness_ShapeOrderDecidesBetweenShapes :
    ∃ d ps, compileDispatcher [("1NNN", "GOTO"), ("1XNN", "FOO")] = .ok d ∧
      compilePatterns 0 [("1NNN", "GOTO"), ("1XNN", "FOO")] = .ok ps ∧
      (∃ p ys, decode d ⟨0x12, 0x34⟩ = .known ⟨0x12, 0x34⟩ p ys ∧ p.mnemonic = "GOTO") ∧
      ps.length = 2 ∧ ∀ q ∈ ps, agrees ⟨0x12, 0x34⟩ q.fixedTuple :=
  ⟨_, _, rfl, rfl, ⟨_, _, rfl, by decide⟩, by decide, by unfold agrees; decide⟩

/-- SymbolsPartitionTheNibbles. -/
theorem witness_SymbolsPartitionTheNibbles :
    totalLen [⟨.opFrag, 1⟩, ⟨.register, 1⟩, ⟨.constant, 2⟩] = ([6, 10, 1, 2] : List Nibble).length := by
  decide

/-- ShippedShapesNeverCompete: words with the first nibbles 0 and 15 that hit. -/
theorem witness_ShippedShapesNeverCompete :
    (∃ e ∈ shippedDispatchRom, (lookup e.map (project e (asNibbles ⟨0x00, 0xE0⟩))).isSome = true) ∧
      ∃ e ∈ shippedDispatchRom,
        (lookup e.map (project e (asNibbles ⟨0xFF, 0x65⟩))).isSome = true := by decide

/-- PortCodesStayInRange: the last row, and an unknown word. -/
theorem witness_PortCodesStayInRange :
    (portsOf shippedDispatchRom ⟨0xFF, 0x65⟩).hitO = true ∧
      (portsOf shippedDispatchRom ⟨0x09, 0x99⟩).hitO = false := by decide

/-- EncodingRowsAreDisjoint: a word that a row matches, and one that none matches. -/
theorem witness_EncodingRowsAreDisjoint :
    (∃ r ∈ encTable, r.hits 0x6A12 = true) ∧ ∀ r ∈ encTable, r.hits 0x0999 = false := by decide

/-- EveryInstructionIsOneWord: lengths on either side of 16, and too few bytes. -/
theorem witness_EveryInstructionIsOneWord :
    15 ≠ 16 ∧ 17 ≠ 16 ∧ ([] : List Byte).length < 2 ∧ ([0x6A] : List Byte).length < 2 := by decide

/-- DecodeOfEncode, UnknownWordsDeliverTheFallback. -/
theorem witness_DecodeOfEncode :
    (Instr.draw 0xF 0xF 0xF).WellFormed ∧ (Instr.unknown 0x0999).WellFormed ∧
      (Instr.unknown 0xFFFF).WellFormed := by decide

/-- The statements of the patterns, of the unknown words: a state with the shipped ROMs. -/
theorem witness_RomsShipped : State.reset.RomsShipped := ⟨rfl, rfl⟩

/-- OutputsIgnoreHistory: two states with one dispatch ROM and different histories. -/
theorem witness_OutputsIgnoreHistory :
    ∃ u t t', (reading [0x6A]).dispatchRom = State.reset.dispatchRom ∧
      exec (.unknown 0x0999) (reading [0x6A]) = .next u ∧ exec (.setr 0xA 0x12) u = .next t ∧
      exec (.setr 0xA 0x12) State.reset = .next t' :=
  ⟨_, _, _, rfl, rfl, rfl, rfl⟩

/-- StepRunsTheDecodedInstruction. -/
theorem witness_StepRunsTheDecodedInstruction :
    (reading [0x6A, 0x12, 0x00]).stream = 0x6A :: 0x12 :: [0x00] ∧
      decodeBytes [0x6A, 0x12] = .ok (.setr 0xA 0x12, []) := ⟨rfl, by decide⟩

/-- DanglingByteIsAFatalStreamError, EndOfStreamUndrivesTheInput. -/
theorem witness_StreamEnds : (reading [0x6A]).stream = [0x6A] ∧ State.reset.stream = [] := ⟨rfl, rfl⟩

/-- EveryStepKeepsTheInvariant: a state with the invariant and a next state that presents a word, and
one that presents none. -/
theorem witness_EveryStepKeepsTheInvariant :
    (reading [0x6A, 0x12]).Inv ∧ (∃ t, step (reading [0x6A, 0x12]) = .next t ∧ t.instr = some ⟨0x6A, 0x12⟩) ∧
      State.reset.Inv ∧ ∃ t, step State.reset = .next t :=
  ⟨⟨⟨rfl, rfl⟩, rfl, rfl⟩, ⟨_, rfl, by decide⟩, ⟨⟨rfl, rfl⟩, rfl, rfl⟩, _, rfl⟩

/-- UnknownWordStopsNothing. -/
theorem witness_UnknownWordStopsNothing :
    (reading [0xFF, 0xFF, 0x6A, 0x12]).stream = 0xFF :: 0xFF :: 0x6A :: 0x12 :: [] ∧
      ∃ ys, decode (reading [0xFF, 0xFF, 0x6A, 0x12]).dispatchRom ⟨0xFF, 0xFF⟩ =
        .unknown ⟨0xFF, 0xFF⟩ ys :=
  ⟨rfl, [⟨.opFrag, [15, 15, 15, 15]⟩], by decide⟩

/-- StreamResultsArePointwise: an even stream with a chunk, and an odd one. -/
theorem witness_StreamResultsArePointwise :
    ([0x6A, 0x12, 0x81, 0x23] : List Byte).length % 2 = 0 ∧
      ([0x6A, 0x12, 0x81, 0x23] : List Byte)[2 * 1]? = some 0x81 ∧
      ([0x6A, 0x12, 0x81, 0x23] : List Byte)[2 * 1 + 1]? = some 0x23 ∧
      ([0x6A, 0x12, 0x00] : List Byte).length % 2 = 1 := by decide

/-- RunningTheMachineDecodesTheStream: the last whole chunk, a stream that decodes, and an odd one. -/
theorem witness_RunningTheMachineDecodesTheStream :
    1 < (reading [0x6A, 0x12, 0x81, 0x23]).stream.length / 2 ∧
      (∃ out, decodeStream (reading [0x6A, 0x12]).dispatchRom (reading [0x6A, 0x12]).stream = .ok out) ∧
      (reading [0x6A, 0x12, 0x00]).stream.length % 2 = 1 :=
  ⟨by decide, ⟨_, rfl⟩, by decide⟩

/-- WholeStreamsRunSafely, EveryStepKeepsTheStreamWhole: a word left, and nothing left. -/
theorem witness_WholeStreamsRunSafely : (reading [0x6A, 0x12]).WholeStream ∧ State.reset.WholeStream := by decide

end Sys2Proof.Tests
end

section
/-! PROOFS. Reset, the invariant, and the outputs as a function of the dispatch ROM and the word
(10_state.md R20, R35, R46, R47). -/

namespace Sys2Proof.Machine

/-- R20, R46: presenting a word in a state with the shipped ROMs gives a state with the invariant. -/
theorem present_inv {s : State} (h : s.RomsShipped) (raw : Raw) : (s.present raw).Inv :=
  ⟨h, rfl, rfl⟩

/-- R47: an undriven input leaves a state with the shipped ROMs in one with the invariant. -/
theorem undrive_inv {s : State} (h : s.RomsShipped) : s.undrive.Inv := ⟨h, rfl, rfl⟩

/-- R20: exec writes no ROM. -/
theorem exec_dispatchRom {i : Instr} {s t : State} (h : exec i s = .next t) :
    t.dispatchRom = s.dispatchRom := by
  obtain ⟨raw, hraw⟩ := exec_presents i s
  rw [hraw] at h
  cases h
  rfl

/-- R35: states with one dispatch ROM show the same outputs once they present the same word. -/
theorem present_outputs_eq {s s' : State} (h : s.dispatchRom = s'.dispatchRom) (raw : Raw) :
    (s.present raw).instr = (s'.present raw).instr ∧
      (s.present raw).result = (s'.present raw).result ∧
      (s.present raw).ports = (s'.present raw).ports := by
  simp [h]

/-- Settles O53: whichever way a step goes on, it keeps the ROMs and drives the outputs afresh. -/
theorem everyStepKeepsTheInvariant : Obligations.EveryStepKeepsTheInvariant := by
  rintro s t ⟨hroms, -⟩ hstep
  obtain ⟨-, rfl⟩ | ⟨b0, b1, rest, raw, -, rfl⟩ := step_cases hstep
  · exact undrive_inv hroms
  · exact present_inv (s := s.advance rest) hroms raw

/-- Settles O49: both runs end by presenting the same word under the same dispatch ROM. -/
theorem outputsIgnoreHistory : Obligations.OutputsIgnoreHistory := by
  intro i j s s' t t' u hrom hu ht ht'
  obtain ⟨raw, hraw⟩ := exec_presents_uniformly i
  rw [hraw] at ht ht'
  cases ht
  cases ht'
  exact present_outputs_eq ((exec_dispatchRom hu).trans hrom) raw

theorem compileDispatcher_shippedTable :
    compileDispatcher shippedTable = .ok shippedDispatchRom := by decide

theorem compilePatterns_shippedTable :
    compilePatterns 0 shippedTable = .ok shippedPatternRom := by decide

/-- R254: what a table's two compilations give is what stands in the machine it builds. -/
theorem powerOn_eq {t : Table} {d : Dispatcher} {ps : List Pattern}
    (hd : compileDispatcher t = .ok d) (hps : compilePatterns 0 t = .ok ps) :
    powerOn t = .ok { State.reset with patternRom := ps, dispatchRom := d } := by
  simp [powerOn, hd, hps]

/-- Settles O1. -/
theorem shippedTableBuildsTheResetRoms : Obligations.ShippedTableBuildsTheResetRoms :=
  ⟨compileDispatcher_shippedTable, compilePatterns_shippedTable,
    powerOn_eq compileDispatcher_shippedTable compilePatterns_shippedTable,
    by decide, by decide, by decide⟩

/-- Settles O2: the reset state holds the shipped ROMs, presents nothing and has nothing to read. -/
theorem resetMeetsTheInvariant : Obligations.ResetMeetsTheInvariant :=
  ⟨⟨⟨rfl, rfl⟩, rfl, rfl⟩, rfl⟩

/-- Settles O3. -/
theorem shippedRomIsCanonical : Obligations.ShippedRomIsCanonical :=
  ⟨by decide, by decide, by decide, by decide⟩

/-- Settles O29. -/
theorem muxWiringOfTheShippedShapes : Obligations.MuxWiringOfTheShippedShapes :=
  ⟨by decide, rfl⟩

end Sys2Proof.Machine
end

section
/-! PROOFS. Builders and the symbols they build (40_table_compilation.md R105 to R107,
41_decode_resolution.md R121, R130): a builder as the list of the kinds it gives the positions, and the
partition of a word's nibbles into symbols. -/

namespace Sys2Proof.Machine

open Sys2Proof.Claims

/-! ### Runs and builders -/

/-- What a character does to the runs after it: it stands alone, or it joins the first of them. -/
theorem runs_cons_cases (c : MaskChar) (cs : List MaskChar) :
    runs (c :: cs) = ⟨c, 1⟩ :: runs cs ∨
      ∃ r rs, runs cs = r :: rs ∧ r.char = c ∧ runs (c :: cs) = ⟨c, r.len + 1⟩ :: rs := by
  match h : runs cs with
  | [] => exact .inl (by simp [runs, h])
  | r :: rs =>
    by_cases hc : r.char = c
    · exact .inr ⟨r, rs, rfl, hc, by simp [runs, h, hc]⟩
    · exact .inl (by simp [runs, h, hc])

theorem flatMap_replicate_runs (cs : List MaskChar) :
    (runs cs).flatMap (fun r => List.replicate r.len r.char) = cs := by
  induction cs with
  | nil => rfl
  | cons c cs ih =>
    obtain hr | ⟨r, rs, hcs, rfl, hr⟩ := runs_cons_cases c cs
    · simp [hr, ih]
    · rw [hcs, List.flatMap_cons] at ih
      rw [hr, List.flatMap_cons, List.replicate_succ, List.cons_append, ih]

theorem one_le_len_of_mem_runs {cs : List MaskChar} : ∀ r ∈ runs cs, 1 ≤ r.len := by
  induction cs with
  | nil => simp [runs]
  | cons c cs ih =>
    obtain hr | ⟨r, rs, hcs, -, hr⟩ := runs_cons_cases c cs
    · simpa [hr] using ih
    · rw [hcs, List.forall_mem_cons] at ih
      simpa [hr] using ih.2

/-- The kind a builder gives each position (R106), position by position. -/
def runKinds (b : Builder) : List Kind := b.flatMap fun r => List.replicate r.len r.kind

theorem runKinds_cons (r : Run) (b : Builder) :
    runKinds (r :: b) = List.replicate r.len r.kind ++ runKinds b := rfl

theorem totalLen_cons (r : Run) (b : Builder) : totalLen (r :: b) = r.len + totalLen b := rfl

theorem length_runKinds (b : Builder) : (runKinds b).length = totalLen b := by
  simp [runKinds, totalLen]

theorem kindAt_eq_getElem? (b : Builder) (i : Nat) : kindAt b i = (runKinds b)[i]? := by
  induction b generalizing i with
  | nil => rfl
  | cons r b ih =>
    rw [runKinds_cons, kindAt]
    split
    case isTrue h => simp [List.getElem?_append, h]
    case isFalse h => simp [List.getElem?_append, h, ih]

theorem runKinds_deriveBuilder (m : Quad MaskChar) :
    runKinds (deriveBuilder m) = m.toList.map kindOf := by
  conv_rhs => rw [← flatMap_replicate_runs m.toList]
  simp [runKinds, deriveBuilder, List.flatMap_map, List.map_flatMap]

theorem totalLen_deriveBuilder (m : Quad MaskChar) : totalLen (deriveBuilder m) = 4 := by
  rw [← length_runKinds, runKinds_deriveBuilder]
  rfl

theorem one_le_len_of_mem_deriveBuilder {m : Quad MaskChar} {r : Run} (h : r ∈ deriveBuilder m) :
    1 ≤ r.len := by
  obtain ⟨c, hc, rfl⟩ := List.mem_map.mp h
  exact one_le_len_of_mem_runs c hc

/-! ### The symbols of a builder -/

theorem map_kind_build (b : Builder) (ns : List Nibble) :
    (build b ns).map Symbol.kind = b.map Run.kind := by
  induction b generalizing ns with
  | nil => rfl
  | cons r b ih => simp [build, ih]

theorem map_nibbleCount_build {b : Builder} {ns : List Nibble} (h : totalLen b = ns.length) :
    (build b ns).map Symbol.nibbleCount = b.map Run.len := by
  induction b generalizing ns with
  | nil => rfl
  | cons r b ih =>
    rw [totalLen_cons] at h
    have hrest : totalLen b = (ns.drop r.len).length := by rw [List.length_drop]; omega
    rw [build, List.map_cons, List.map_cons, ih hrest, Symbol.nibbleCount,
      List.length_take_of_le (by omega)]

theorem flatMap_nibbles_build {b : Builder} {ns : List Nibble} (h : totalLen b = ns.length) :
    (build b ns).flatMap Symbol.nibbles = ns := by
  induction b generalizing ns with
  | nil => exact (List.eq_nil_of_length_eq_zero h.symm).symm
  | cons r b ih =>
    rw [totalLen_cons] at h
    have hrest : totalLen b = (ns.drop r.len).length := by rw [List.length_drop]; omega
    simp [build, ih hrest]

/-- R130, R43: the symbols hold these nibbles in order, and none of them is empty. -/
structure Partitions (ys : List Symbol) (ns : List Nibble) : Prop where
  flatMap_nibbles : ys.flatMap Symbol.nibbles = ns
  one_le_nibbleCount : ∀ y ∈ ys, 1 ≤ y.nibbleCount

theorem partitions_build {b : Builder} {ns : List Nibble} (h : totalLen b = ns.length)
    (hpos : ∀ r ∈ b, 1 ≤ r.len) : Partitions (build b ns) ns where
  flatMap_nibbles := flatMap_nibbles_build h
  one_le_nibbleCount y hy := by
    have hlen : y.nibbleCount ∈ b.map Run.len :=
      map_nibbleCount_build h ▸ List.mem_map_of_mem hy
    obtain ⟨r, hr, hry⟩ := List.mem_map.mp hlen
    exact hry ▸ hpos r hr

theorem Partitions.sum_nibbleCount {ys : List Symbol} {ns : List Nibble} (h : Partitions ys ns) :
    (ys.map Symbol.nibbleCount).sum = ns.length := by
  rw [← h.flatMap_nibbles, List.length_flatMap]
  rfl

theorem Partitions.length_le {ys : List Symbol} {ns : List Nibble} (h : Partitions ys ns) :
    ys.length ≤ ns.length := by
  rw [← h.sum_nibbleCount]
  simpa using List.card_nsmul_le_sum (ys.map Symbol.nibbleCount) 1 (by simpa using h.one_le_nibbleCount)

theorem Partitions.length_pos {ys : List Symbol} {ns : List Nibble} (h : Partitions ys ns)
    (hns : ns ≠ []) : 1 ≤ ys.length := by
  rw [Nat.one_le_iff_ne_zero, Ne, List.length_eq_zero_iff]
  rintro rfl
  exact hns h.flatMap_nibbles.symm

/-- Symbol `k` starts where the symbols before it end, and ends inside the nibbles. -/
theorem Partitions.sum_take_add_le {ys : List Symbol} {ns : List Nibble} (h : Partitions ys ns)
    {k : Nat} {y : Symbol} (hy : ys[k]? = some y) :
    ((ys.take k).map Symbol.nibbleCount).sum + y.nibbleCount ≤ ns.length := by
  obtain ⟨hk, rfl⟩ := List.getElem?_eq_some_iff.mp hy
  have hsplit := List.sum_take_add_sum_drop (ys.map Symbol.nibbleCount) (k + 1)
  rw [h.sum_nibbleCount, ← List.map_take, List.take_succ_eq_append_getElem hk, List.map_append,
    List.sum_append, List.map_singleton, List.sum_singleton] at hsplit
  omega

/-! ### The positional value of nibbles -/

@[simp] theorem nibblesToInt_nil : nibblesToInt [] = 0 := rfl

theorem nibblesToInt_concat (ns : List Nibble) (n : Nibble) :
    nibblesToInt (ns ++ [n]) = nibblesToInt ns * 16 + n.toNat := by
  simp [nibblesToInt]

theorem nibblesToInt_append (ms ns : List Nibble) :
    nibblesToInt (ms ++ ns) = nibblesToInt ms * 16 ^ ns.length + nibblesToInt ns := by
  induction ns using List.reverseRecOn with
  | nil => simp
  | append_singleton ns n ih =>
    rw [← List.append_assoc, nibblesToInt_concat, nibblesToInt_concat, ih, List.length_append,
      List.length_singleton, pow_succ]
    ring

theorem nibblesToInt_lt (ns : List Nibble) : nibblesToInt ns < 16 ^ ns.length := by
  induction ns using List.reverseRecOn with
  | nil => simp
  | append_singleton ns n ih =>
    rw [nibblesToInt_concat, List.length_append, List.length_singleton, pow_succ]
    have := n.isLt
    omega

/-- R135: the digits of a value are the nibbles it was read from. -/
theorem digits_nibblesToInt (ns : List Nibble) : digits ns.length (nibblesToInt ns) = ns := by
  induction ns using List.reverseRecOn with
  | nil => rfl
  | append_singleton ns n ih =>
    have hn := n.isLt
    have hdiv : (nibblesToInt ns * 16 + n.toNat) / 16 = nibblesToInt ns := by omega
    have hlow : BitVec.ofNat 4 (nibblesToInt ns * 16 + n.toNat) = n := by
      apply BitVec.eq_of_toNat_eq
      rw [BitVec.toNat_ofNat]
      omega
    rw [nibblesToInt_concat, List.length_append, List.length_singleton, digits, hdiv, hlow, ih]

/-- The value of some adjacent nibbles, cut out of the value of them all. -/
theorem nibblesToInt_middle (as bs cs : List Nibble) :
    nibblesToInt (as ++ (bs ++ cs)) / 16 ^ cs.length % 16 ^ bs.length = nibblesToInt bs := by
  have hval : nibblesToInt (as ++ (bs ++ cs)) =
      nibblesToInt cs + 16 ^ cs.length * (nibblesToInt bs + 16 ^ bs.length * nibblesToInt as) := by
    rw [nibblesToInt_append, nibblesToInt_append, List.length_append, pow_add]
    ring
  rw [hval, Nat.add_mul_div_left _ _ (by positivity), Nat.div_eq_of_lt (nibblesToInt_lt cs), zero_add,
    Nat.add_mul_mod_self_left, Nat.mod_eq_of_lt (nibblesToInt_lt bs)]

/-- The value of the nibbles `p` to `p + l - 1`. -/
theorem nibblesToInt_slice (ns : List Nibble) {p l : Nat} (h : p + l ≤ ns.length) :
    nibblesToInt ((ns.drop p).take l) = nibblesToInt ns / 16 ^ (ns.length - (p + l)) % 16 ^ l := by
  have hmid := nibblesToInt_middle (ns.take p) ((ns.drop p).take l) ((ns.drop p).drop l)
  rw [List.take_append_drop, List.take_append_drop, List.length_drop, List.length_drop, Nat.sub_sub,
    List.length_take_of_le (by rw [List.length_drop]; omega)] at hmid
  exact hmid.symm

theorem word_eq_joinNibbles (raw : Raw) :
    raw.word = joinNibbles (asNibbles raw).n0 (asNibbles raw).n1 (asNibbles raw).n2
      (asNibbles raw).n3 := by
  apply BitVec.eq_of_toNat_eq
  rw [toNat_word, toNat_joinNibbles]
  simp only [asNibbles, toNat_highNibble, toNat_lowNibble]
  omega

theorem nibblesToInt_asNibbles (raw : Raw) : nibblesToInt (asNibbles raw).toList = raw.word.toNat := by
  rw [word_eq_joinNibbles, toNat_joinNibbles]
  simp only [nibblesToInt, Quad.toList, List.foldl_cons, List.foldl_nil]
  omega

end Sys2Proof.Machine
end

section
/-! PROOFS. What a compiled dispatcher holds (40_table_compilation.md R100 to R110), and the lookup against
the masked compare of a row (41_decode_resolution.md R121, R122; 10_state.md R45). -/

namespace Sys2Proof.Machine

open Sys2Proof.Claims

/-! ### What compilation leaves -/

/-- R100, R103: what compiling a row gives. -/
theorem compilePattern_ok {hp mn : String} {idx : Nat} {p : Pattern}
    (h : compilePattern hp mn idx = .ok p) :
    ∃ q, validate hp = .ok q ∧
      p = ⟨hp, mn, q.map fixedChar, q.map variableChar, (q.map fixedChar).map fixedNibble, idx⟩ := by
  match hv : validate hp with
  | .error f => simp [compilePattern, hv] at h
  | .ok q => exact ⟨q, rfl, by simpa [compilePattern, hv] using h.symm⟩

/-- R110: what registering a pattern can do: it enters the map of the first shape with its mask, or, when
no shape has its mask and its runs are supported, it starts a new last one. -/
theorem registerPattern_cases {d d' : Dispatcher} {p : Pattern} (h : registerPattern d p = .ok d') :
    (∃ pre e post, d = pre ++ e :: post ∧ (∀ e' ∈ pre, e'.variableMask ≠ p.variableMask) ∧
        e.variableMask = p.variableMask ∧
        d' = pre ++ { e with map := mapInsert e.map p.fixedTuple p } :: post) ∨
      ((∀ e ∈ d, e.variableMask ≠ p.variableMask) ∧
        checkRuns (deriveBuilder p.variableMask) = .ok () ∧
        d' = d ++ [⟨p.variableMask, deriveBuilder p.variableMask, [(p.fixedTuple, p)]⟩]) := by
  induction d generalizing d' with
  | nil =>
    match hc : checkRuns (deriveBuilder p.variableMask) with
    | .error f => simp [registerPattern, hc] at h
    | .ok () => exact .inr ⟨by simp, rfl, by simpa [registerPattern, hc] using h.symm⟩
  | cons e d ih =>
    by_cases he : e.variableMask = p.variableMask
    · exact .inl ⟨[], e, d, rfl, by simp, he, by simpa [registerPattern, he] using h.symm⟩
    · match hr : registerPattern d p with
      | .error f => simp [registerPattern, he, hr] at h
      | .ok d₁ =>
        obtain rfl : e :: d₁ = d' := by simpa [registerPattern, he, hr] using h
        obtain ⟨pre, e₁, post, rfl, hpre, he₁, rfl⟩ | ⟨hd, hc, rfl⟩ := ih hr
        · exact .inl ⟨e :: pre, e₁, post, rfl, List.forall_mem_cons.mpr ⟨he, hpre⟩, he₁, rfl⟩
        · exact .inr ⟨List.forall_mem_cons.mpr ⟨he, hd⟩, hc, rfl⟩

/-- What holds of a dispatcher and is kept by every registration of a compiled pattern holds after the
rows that follow. -/
theorem compileFrom_induction {motive : Dispatcher → Prop}
    (hstep : ∀ {hp mn idx p d d'}, compilePattern hp mn idx = .ok p → registerPattern d p = .ok d' →
      motive d → motive d')
    {idx : Nat} {d d' : Dispatcher} {t : Table} (h : compileFrom idx d t = .ok d') (hd : motive d) :
    motive d' := by
  induction t generalizing idx d with
  | nil =>
    cases h
    exact hd
  | cons row rest ih =>
    obtain ⟨p, e, hp, hr, hrest⟩ := compileFrom_cons_inv h
    exact ih hrest (hstep hp hr hd)

theorem mem_mapInsert {m : List (Key × Pattern)} {k : Key} {p : Pattern} {kp : Key × Pattern}
    (h : kp ∈ mapInsert m k p) : kp = (k, p) ∨ kp ∈ m := by
  induction m with
  | nil => exact .inl (List.mem_singleton.mp h)
  | cons kp₁ m ih =>
    by_cases hk : kp₁.1 = k
    · rw [mapInsert, if_pos hk, List.mem_cons] at h
      exact h.imp_right (List.mem_cons_of_mem _)
    · rw [mapInsert, if_neg hk, List.mem_cons] at h
      obtain rfl | h := h
      · exact .inr List.mem_cons_self
      · exact (ih h).imp_right (List.mem_cons_of_mem _)

/-- R108, R110: a map element of the shape with this variable mask: a compiled pattern of that mask under
its own tuple. -/
def CompiledRow (m : Quad MaskChar) (kp : Key × Pattern) : Prop :=
  (∃ hp mn idx, compilePattern hp mn idx = .ok kp.2) ∧ kp.2.variableMask = m ∧ kp.1 = kp.2.fixedTuple

/-- R108: an entry as compilation leaves it. -/
structure CompiledEntry (e : Entry) : Prop where
  builder_eq : e.builder = deriveBuilder e.variableMask
  rows : ∀ kp ∈ e.map, CompiledRow e.variableMask kp

theorem registerPattern_compiledEntry {hp mn : String} {idx : Nat} {p : Pattern} {d d' : Dispatcher}
    (hp : compilePattern hp mn idx = .ok p) (hr : registerPattern d p = .ok d')
    (hd : ∀ e ∈ d, CompiledEntry e) : ∀ e ∈ d', CompiledEntry e := by
  have hrow : CompiledRow p.variableMask (p.fixedTuple, p) := ⟨⟨_, _, _, hp⟩, rfl, rfl⟩
  obtain ⟨pre, e, post, rfl, -, he, rfl⟩ | ⟨-, -, rfl⟩ := registerPattern_cases hr
  · rw [List.forall_mem_append, List.forall_mem_cons] at hd ⊢
    obtain ⟨hpre, hent, hpost⟩ := hd
    refine ⟨hpre, ⟨hent.builder_eq, fun kp hkp => ?_⟩, hpost⟩
    obtain rfl | hkp := mem_mapInsert hkp
    · exact he ▸ hrow
    · exact hent.rows kp hkp
  · rw [List.forall_mem_append, List.forall_mem_singleton]
    exact ⟨hd, rfl, by simpa using hrow⟩

/-- R110: every entry of a compiled dispatcher is a compiled entry. -/
theorem compiledEntry_of_compileDispatcher {t : Table} {d : Dispatcher}
    (h : compileDispatcher t = .ok d) : ∀ e ∈ d, CompiledEntry e :=
  compileFrom_induction (motive := fun d => ∀ e ∈ d, CompiledEntry e) registerPattern_compiledEntry h
    (by simp)

/-! ### The lookup of a compiled entry is the masked compare -/

/-- R45: the masked compare of one nibble. -/
theorem nibble_masked_iff (n : Nibble) (k : Option Nibble) :
    n &&& (if k.isSome then 0xF else 0) = k.getD 0 ↔ ∀ v, k = some v → n = v := by
  cases k with
  | none => simp
  | some v =>
    have hones : n &&& 15#4 = n := BitVec.and_allOnes
    simp [hones]

/-- R45, R113: a row's match line is 1 exactly when the word agrees with its tuple. -/
theorem matchLine_iff_agrees (raw : Raw) (p : Pattern) :
    matchLine raw.word p = true ↔ agrees raw p.fixedTuple := by
  rw [matchLine, beq_iff_eq, word_eq_joinNibbles]
  simp only [Pattern.mask16, Pattern.match16, append_nibbles, joinNibbles_and, joinNibbles_inj,
    nibble_masked_iff, agrees]

/-- R121: one position of the projection by the builder of a pattern's mask: the nibble under a fixed
digit, nothing under a symbol. -/
def keepFixed : PatChar → Nibble → Option Nibble
  | .hex _, n => some n
  | .sym _, _ => none

theorem project_deriveBuilder {e : Entry} {q : Quad PatChar}
    (h : e.builder = deriveBuilder (q.map variableChar)) (ns : Quad Nibble) :
    project e ns =
      ⟨keepFixed q.n0 ns.n0, keepFixed q.n1 ns.n1, keepFixed q.n2 ns.n2, keepFixed q.n3 ns.n3⟩ := by
  have hchar : ∀ c n, (if some (kindOf (variableChar c)) = some .opFrag then some n else none) =
      keepFixed c n := by
    rintro (v | _ | _ | _) n <;> rfl
  simp only [project, projectAt, h, kindAt_eq_getElem?, runKinds_deriveBuilder, ← hchar]
  rfl

theorem fixedNibble_eq_keepFixed_iff (c : PatChar) (n : Nibble) :
    fixedNibble (fixedChar c) = keepFixed c n ↔ ∀ v, fixedNibble (fixedChar c) = some v → n = v := by
  cases c with
  | hex v => simp [fixedNibble, fixedChar, keepFixed, eq_comm]
  | sym y => simp [fixedNibble, fixedChar, keepFixed]

/-- R122, R113: in a compiled entry a word projects onto a row's key exactly when it agrees with it. -/
theorem CompiledEntry.key_eq_project_iff {e : Entry} (h : CompiledEntry e) {kp : Key × Pattern}
    (hkp : kp ∈ e.map) (raw : Raw) : kp.1 = project e (asNibbles raw) ↔ agrees raw kp.1 := by
  obtain ⟨⟨hp, mn, idx, hcomp⟩, hmask, hkey⟩ := h.rows kp hkp
  obtain ⟨q, -, hpat⟩ := compilePattern_ok hcomp
  have hbuilder : e.builder = deriveBuilder (q.map variableChar) := by
    rw [h.builder_eq, ← hmask, hpat]
  rw [hkey, hpat, project_deriveBuilder hbuilder]
  simp only [agrees, Quad.map, Quad.mk.injEq, fixedNibble_eq_keepFixed_iff]

/-- R45, R122: in a compiled entry the match line of a row is the equality of keys. -/
theorem CompiledEntry.matchLine_eq {e : Entry} (h : CompiledEntry e) {kp : Key × Pattern}
    (hkp : kp ∈ e.map) (raw : Raw) :
    matchLine raw.word kp.2 = decide (kp.1 = project e (asNibbles raw)) := by
  obtain ⟨-, -, hkey⟩ := h.rows kp hkp
  rw [Bool.eq_iff_iff, decide_eq_true_iff, h.key_eq_project_iff hkp, matchLine_iff_agrees, hkey]

theorem lookup_eq_find? (m : List (Key × Pattern)) (k : Key) :
    lookup m k = (m.find? fun kp => decide (kp.1 = k)).map Prod.snd := by
  induction m with
  | nil => rfl
  | cons kp m ih =>
    rw [lookup_cons, List.find?_cons]
    by_cases hk : kp.1 = k
    · simp [hk]
    · simpa [hk] using ih

theorem CompiledEntry.matchedRow_eq_lookup {e : Entry} (h : CompiledEntry e) (raw : Raw) :
    matchedRow raw.word e = lookup e.map (project e (asNibbles raw)) := by
  rw [matchedRow, lookup_eq_find?, List.find?_congr fun kp hkp => h.matchLine_eq hkp raw]

theorem hitLine_eq_isSome_matchedRow (w : Word) (e : Entry) : hitLine w e = (matchedRow w e).isSome := by
  rw [hitLine, matchedRow, Option.isSome_map, Bool.eq_iff_iff, List.any_eq_true, List.find?_isSome]

end Sys2Proof.Machine
end

section
/-! PROOFS. The output ports (10_state.md R42 to R45): what a decode can do, the slots of its symbols, and
the gates that drive the same values. -/

namespace Sys2Proof.Machine

open Sys2Proof.Claims

/-! ### What a decode can do -/

/-- R120, R123, R124: a decode ends in the first entry that hits, at position `k`, or in none. -/
theorem decode_cases (d : Dispatcher) (raw : Raw) :
    (∃ k e p, d[k]? = some e ∧ lookup e.map (project e (asNibbles raw)) = some p ∧
        shapeHit d raw = some k ∧
        decode d raw = .known raw p (build e.builder (asNibbles raw).toList)) ∨
      ((∀ e ∈ d, lookup e.map (project e (asNibbles raw)) = none) ∧ shapeHit d raw = none ∧
        decode d raw = .unknown raw [⟨.opFrag, (asNibbles raw).toList⟩]) := by
  induction d with
  | nil => exact .inr ⟨by simp, rfl, rfl⟩
  | cons e d ih =>
    match hl : lookup e.map (project e (asNibbles raw)) with
    | some p => exact .inl ⟨0, e, p, rfl, hl, shapeHit_cons_hit hl, decode_cons_hit hl⟩
    | none =>
      rw [shapeHit_cons_miss hl, decode_cons_miss hl]
      obtain ⟨k, e', p, he', hp, hs, hd⟩ | ⟨hmiss, hs, hd⟩ := ih
      · exact .inl ⟨k + 1, e', p, by simpa using he', hp, by simp [hs], hd⟩
      · exact .inr ⟨List.forall_mem_cons.mpr ⟨hl, hmiss⟩, by simp [hs], hd⟩

/-- R122: `hits` as a test. -/
def hitsIn (e : Entry) (raw : Raw) : Bool := (lookup e.map (project e (asNibbles raw))).isSome

theorem hitsIn_of_lookup {e : Entry} {raw : Raw} {p : Pattern}
    (h : lookup e.map (project e (asNibbles raw)) = some p) : hitsIn e raw = true := by
  rw [hitsIn, h, Option.isSome_some]

/-- R120: a decode knows a word exactly when some shape hits. -/
theorem hitO_decode_eq_any (d : Dispatcher) (raw : Raw) :
    hitO (decode d raw) = d.any fun e => hitsIn e raw := by
  obtain ⟨k, e, p, he, hp, -, hdec⟩ | ⟨hmiss, -, hdec⟩ := decode_cases d raw
  · rw [hdec, hitO, eq_comm, List.any_eq_true]
    exact ⟨e, List.mem_of_getElem? he, hitsIn_of_lookup hp⟩
  · rw [hdec, hitO, eq_comm, List.any_eq_false]
    exact fun e he => by simp [hitsIn, hmiss e he]

/-- R124: the unknown result's one symbol is what the one-fragment builder builds. -/
theorem build_opFrag_four (raw : Raw) :
    build [⟨.opFrag, 4⟩] (asNibbles raw).toList = [⟨.opFrag, (asNibbles raw).toList⟩] := rfl

/-- R130: the symbols of a decode under a compiled dispatcher hold the four nibbles in order. -/
theorem partitions_decode {d : Dispatcher} (hd : ∀ e ∈ d, CompiledEntry e) (raw : Raw) :
    Partitions (decode d raw).symbols (asNibbles raw).toList := by
  obtain ⟨k, e, p, he, -, -, hdec⟩ | ⟨-, -, hdec⟩ := decode_cases d raw
  · have hb := (hd e (List.mem_of_getElem? he)).builder_eq
    rw [hdec, Decoded.symbols, hb]
    exact partitions_build (totalLen_deriveBuilder _) fun r => one_le_len_of_mem_deriveBuilder
  · rw [hdec, Decoded.symbols, ← build_opFrag_four]
    exact partitions_build rfl (by simp)

/-! ### The slots -/

/-- R43: slot `k` of symbols: the code of the kind, where the symbols before it end, the length and the
value of symbol `k`. -/
theorem getElem?_slotsFrom (pos : Nat) (ys : List Symbol) (k : Nat) :
    (slotsFrom pos ys)[k]? = ys[k]?.map fun y =>
      ⟨kindCode y.kind, BitVec.ofNat 2 (pos + ((ys.take k).map Symbol.nibbleCount).sum),
        BitVec.ofNat 3 y.nibbleCount, BitVec.ofNat 16 y.value⟩ := by
  induction ys generalizing pos k with
  | nil => rfl
  | cons y ys ih =>
    cases k with
    | zero => rfl
    | succ k => simp [slotsFrom, ih, Nat.add_assoc]

theorem slotAt_of_some {ys : List Symbol} {k : Nat} {y : Symbol} (h : ys[k]? = some y) :
    slotAt ys k = ⟨kindCode y.kind, BitVec.ofNat 2 ((ys.take k).map Symbol.nibbleCount).sum,
      BitVec.ofNat 3 y.nibbleCount, BitVec.ofNat 16 y.value⟩ := by
  simp [slotAt, List.getD_eq_getElem?_getD, getElem?_slotsFrom, h]

theorem slotAt_of_none {ys : List Symbol} {k : Nat} (h : ys[k]? = none) : slotAt ys k = emptySlot := by
  simp [slotAt, List.getD_eq_getElem?_getD, getElem?_slotsFrom, h]

/-- R43: in a partition of four nibbles no field of a slot is cut off, and the slot's value has the
symbol's nibbles as its digits. -/
theorem Partitions.slotAt_fields {ys : List Symbol} {ns : List Nibble} (h : Partitions ys ns)
    (hns : ns.length = 4) {k : Nat} {y : Symbol} (hy : ys[k]? = some y) :
    (slotAt ys k).pos.toNat = ((ys.take k).map Symbol.nibbleCount).sum ∧
      (slotAt ys k).len.toNat = y.nibbleCount ∧ (slotAt ys k).val.toNat = y.value ∧
      digits (slotAt ys k).len.toNat (slotAt ys k).val.toNat = y.nibbles := by
  have hend := h.sum_take_add_le hy
  have hcount := h.one_le_nibbleCount y (List.mem_of_getElem? hy)
  have hval : y.value < 16 ^ 4 :=
    (nibblesToInt_lt y.nibbles).trans_le
      (Nat.pow_le_pow_right (by decide) (show y.nibbleCount ≤ 4 by omega))
  have hlen : (BitVec.ofNat 3 y.nibbleCount).toNat = y.nibbleCount := by
    rw [BitVec.toNat_ofNat]
    omega
  have hval16 : (BitVec.ofNat 16 y.value).toNat = y.value := by
    rw [BitVec.toNat_ofNat]
    omega
  rw [slotAt_of_some hy]
  refine ⟨?_, hlen, hval16, ?_⟩
  · rw [BitVec.toNat_ofNat]
    omega
  · rw [hlen, hval16]
    exact digits_nibblesToInt y.nibbles

/-- R43: the four slots of the ports, by number. -/
theorem portsOf_slot {d : Dispatcher} {raw : Raw} {k : Nat} {slot : Slot}
    (h : [(portsOf d raw).slot0, (portsOf d raw).slot1, (portsOf d raw).slot2,
      (portsOf d raw).slot3][k]? = some slot) : k < 4 ∧ slot = slotAt (decode d raw).symbols k := by
  have hslots : [(portsOf d raw).slot0, (portsOf d raw).slot1, (portsOf d raw).slot2,
      (portsOf d raw).slot3] = (List.range 4).map (slotAt (decode d raw).symbols) := rfl
  rw [hslots, List.getElem?_map, Option.map_eq_some_iff] at h
  obtain ⟨j, hj, rfl⟩ := h
  obtain ⟨hk, rfl⟩ := List.getElem?_eq_some_iff.mp hj
  exact ⟨by simpa using hk, by simp⟩

/-- R42: `nsym_o` counts the symbols of a decode under a compiled dispatcher. -/
theorem toNat_nsymO {d : Dispatcher} (hd : ∀ e ∈ d, CompiledEntry e) (raw : Raw) :
    (portsOf d raw).nsymO.toNat = (decode d raw).symbols.length := by
  have hle : (decode d raw).symbols.length ≤ 4 := (partitions_decode hd raw).length_le
  rw [show (portsOf d raw).nsymO = BitVec.ofNat 3 (decode d raw).symbols.length from rfl,
    BitVec.toNat_ofNat]
  omega

/-- Settles O31: the symbols partition the four nibbles, so every field of a slot fits its port. -/
theorem slotsHoldTheSymbols : Obligations.SlotsHoldTheSymbols := by
  intro t d ht raw
  have hd := compiledEntry_of_compileDispatcher ht
  have hpart := partitions_decode hd raw
  refine ⟨hpart.flatMap_nibbles, hpart.length_pos (by simp [Quad.toList]), hpart.length_le,
    toNat_nsymO hd raw, fun k slot hslot => ?_⟩
  obtain ⟨-, rfl⟩ := portsOf_slot hslot
  match hy : (decode d raw).symbols[k]? with
  | some y =>
    obtain ⟨hpos, -, hval, hdigits⟩ := hpart.slotAt_fields rfl hy
    refine ⟨hdigits, hval, hpos, ?_⟩
    rw [slotAt_of_some hy]
    cases y.kind <;> rfl
  | none => exact slotAt_of_none hy

/-! ### The ports determine the word -/

theorem asNibbles_injective : Function.Injective asNibbles := fun r r' h => by
  rw [← ofNibbles_asNibbles r, h, ofNibbles_asNibbles]

theorem quad_toList_injective {α : Type} : Function.Injective (Quad.toList (α := α)) := by
  rintro ⟨a, b, c, d⟩ ⟨a', b', c', d'⟩ h
  simpa [Quad.toList] using h

/-- D3: symbols that partition four nibbles are known, kinds apart, from their number and their slots. -/
theorem Partitions.map_nibbles_eq {ys ys' : List Symbol} {ns ns' : List Nibble} (h : Partitions ys ns)
    (h' : Partitions ys' ns') (hns : ns.length = 4) (hns' : ns'.length = 4)
    (hlen : ys.length = ys'.length) (hslot : ∀ k < 4, slotAt ys k = slotAt ys' k) :
    ys.map Symbol.nibbles = ys'.map Symbol.nibbles := by
  refine List.ext_getElem (by simpa using hlen) fun k hk hk' => ?_
  rw [List.length_map] at hk hk'
  have hk4 : k < 4 := hns ▸ hk.trans_le h.length_le
  obtain ⟨-, -, -, hd⟩ := h.slotAt_fields hns (List.getElem?_eq_getElem hk)
  obtain ⟨-, -, -, hd'⟩ := h'.slotAt_fields hns' (List.getElem?_eq_getElem hk')
  rw [List.getElem_map, List.getElem_map, ← hd, ← hd', hslot k hk4]

/-- Settles O32: the slots give the nibbles of every symbol, and these are the nibbles of the word. -/
theorem portsDetermineTheWord : Obligations.PortsDetermineTheWord := by
  intro t d ht raw raw' hports
  have hd := compiledEntry_of_compileDispatcher ht
  have hpart := partitions_decode hd raw
  have hpart' := partitions_decode hd raw'
  have hlen : (decode d raw).symbols.length = (decode d raw').symbols.length := by
    rw [← toNat_nsymO hd, ← toNat_nsymO hd, hports]
  have hslot : ∀ k < 4, slotAt (decode d raw).symbols k = slotAt (decode d raw').symbols k
    | 0, _ => congrArg Ports.slot0 hports
    | 1, _ => congrArg Ports.slot1 hports
    | 2, _ => congrArg Ports.slot2 hports
    | 3, _ => congrArg Ports.slot3 hports
  apply asNibbles_injective
  apply quad_toList_injective
  rw [← hpart.flatMap_nibbles, ← hpart'.flatMap_nibbles, List.flatMap_def, List.flatMap_def,
    hpart.map_nibbles_eq hpart' rfl rfl hlen hslot]

/-! ### The gates -/

/-- R44: a wire drives the value of the nibbles it covers. -/
theorem wireSlot_eq (raw : Raw) {v : Wire} (h : v.pos + v.len ≤ 4) :
    wireSlot raw.word v = ⟨kindCode v.kind, BitVec.ofNat 2 v.pos, BitVec.ofNat 3 v.len,
      BitVec.ofNat 16 (nibblesToInt (((asNibbles raw).toList.drop v.pos).take v.len))⟩ := by
  have hpow (n : Nat) : 2 ^ (4 * n) = 16 ^ n := Nat.pow_mul 2 4 n
  have hmask : 16 ^ v.len - 1 < 2 ^ 16 :=
    Nat.sub_one_lt_of_le (by positivity) (Nat.pow_le_pow_right (by decide) (by omega : v.len ≤ 4))
  have hval : (raw.word >>> (4 * (4 - (v.pos + v.len)))) &&& BitVec.ofNat 16 (16 ^ v.len - 1) =
      BitVec.ofNat 16 (nibblesToInt (((asNibbles raw).toList.drop v.pos).take v.len)) := by
    apply BitVec.eq_of_toNat_eq
    rw [BitVec.toNat_and, BitVec.toNat_ushiftRight, BitVec.toNat_ofNat, Nat.mod_eq_of_lt hmask,
      ← hpow v.len, Nat.and_two_pow_sub_one_eq_mod, Nat.shiftRight_eq_div_pow, hpow, hpow,
      nibblesToInt_slice _ h, nibblesToInt_asNibbles, BitVec.toNat_ofNat]
    exact (Nat.mod_eq_of_lt ((Nat.mod_le _ _).trans_lt
      ((Nat.div_le_self _ _).trans_lt raw.word.isLt))).symm
  rw [wireSlot, hval]

/-- R44: the mux array's slots are those of the symbols its builder builds. -/
theorem map_wireSlot_wiring (raw : Raw) {pos : Nat} {b : Builder} (h : pos + totalLen b ≤ 4) :
    (wiring pos b).map (wireSlot raw.word) =
      slotsFrom pos (build b ((asNibbles raw).toList.drop pos)) := by
  induction b generalizing pos with
  | nil => rfl
  | cons r b ih =>
    rw [totalLen_cons] at h
    have hcount : (((asNibbles raw).toList.drop pos).take r.len).length = r.len :=
      List.length_take_of_le (by simp [Quad.toList]; omega)
    rw [wiring, List.map_cons, wireSlot_eq raw (by dsimp only; omega), ih (by omega), build,
      slotsFrom, Symbol.nibbleCount, List.drop_drop, hcount]
    rfl

theorem muxSlot_wiring (raw : Raw) {b : Builder} (h : totalLen b = 4) (k : Nat) :
    muxSlot raw.word (wiring 0 b) k = slotAt (build b (asNibbles raw).toList) k := by
  have hslots := map_wireSlot_wiring raw (pos := 0) (b := b) (by omega)
  rw [List.drop_zero] at hslots
  rw [slotAt, ← hslots, List.getD_eq_getElem?_getD, List.getElem?_map, muxSlot]
  cases (wiring 0 b)[k]? <;> rfl

theorem length_wiring (pos : Nat) (b : Builder) : (wiring pos b).length = b.length := by
  induction b generalizing pos with
  | nil => rfl
  | cons r b ih => simp [wiring, ih]

theorem length_build (b : Builder) (ns : List Nibble) : (build b ns).length = b.length := by
  simpa using congrArg List.length (map_kind_build b ns)

/-- R45: the first shape whose hit line is 1 is the one that the lookup hits first. -/
theorem firstHit_eq {d : Dispatcher} (hd : ∀ e ∈ d, CompiledEntry e) (raw : Raw) (k : Nat) :
    firstHit raw.word k d = (shapeHit d raw).bind fun j => d[j]?.map fun e => (k + j, e) := by
  induction d generalizing k with
  | nil => rfl
  | cons e d ih =>
    obtain ⟨he, hd⟩ := List.forall_mem_cons.mp hd
    rw [firstHit, hitLine_eq_isSome_matchedRow, he.matchedRow_eq_lookup]
    match hl : lookup e.map (project e (asNibbles raw)) with
    | some p => simp [shapeHit_cons_hit hl]
    | none =>
      rw [shapeHit_cons_miss hl, ih hd]
      cases shapeHit d raw <;> simp [Nat.add_assoc, Nat.add_comm 1]

/-- R45: some hit line is 1 exactly when some shape hits. -/
theorem any_hitLine_eq {d : Dispatcher} (hd : ∀ e ∈ d, CompiledEntry e) (raw : Raw) :
    d.any (hitLine raw.word) = hitO (decode d raw) := by
  rw [hitO_decode_eq_any, Bool.eq_iff_iff, List.any_eq_true, List.any_eq_true]
  refine exists_congr fun e => and_congr_right fun he => ?_
  rw [hitLine_eq_isSome_matchedRow, (hd e he).matchedRow_eq_lookup, hitsIn]

/-- Settles O30: the selected shape and row are those of the lookup, and the wiring of the selected
builder drives the slots of the symbols it builds. -/
theorem gatesDriveTheSamePorts : Obligations.GatesDriveTheSamePorts := by
  intro t d ht w
  obtain ⟨raw, rfl⟩ : ∃ raw : Raw, w = raw.word := ⟨Raw.ofWord w, (word_ofWord w).symm⟩
  have hd := compiledEntry_of_compileDispatcher ht
  rw [ofWord_word, gatePorts, any_hitLine_eq hd, firstHit_eq hd, portsOf, encodePorts.eq_def]
  obtain ⟨k, e, p, he, hp, hshape, hdec⟩ | ⟨-, hshape, hdec⟩ := decode_cases d raw
  · have hent := hd e (List.mem_of_getElem? he)
    have htotal : totalLen e.builder = 4 := hent.builder_eq ▸ totalLen_deriveBuilder _
    simp [hshape, he, hdec, hent.matchedRow_eq_lookup, hp, Decoded.symbols, muxSlot_wiring raw htotal,
      length_wiring, length_build, opcodeO, unknownO, diagO]
  · have hwires : unknownWiring = wiring 0 [⟨.opFrag, 4⟩] := rfl
    have htotal : totalLen [⟨.opFrag, 4⟩] = 4 := rfl
    simp [hshape, hdec, Decoded.symbols, hwires, muxSlot_wiring raw htotal, ← build_opFrag_four,
      length_wiring, length_build, opcodeO, unknownO, diagO]

end Sys2Proof.Machine
end

section
/-! PROOFS. The shipped shapes (10_state.md R24, R42, R73, R88): which of them can hit, the port codes, and
how many words each of them knows. -/

namespace Sys2Proof.Machine

open Sys2Proof.Claims

/-! ### The first nibble selects the shape -/

/-- R24 item 2: the shape of a first nibble, as the position of its entry. -/
def shapeOfFirst (n : Nibble) : Nat :=
  ([0, 1, 1, 2, 2, 3, 2, 2, 3, 3, 1, 1, 2, 4, 5, 5] : List Nat).getD n.toNat 6

/-- Every shipped shape keeps the first nibble in its key. -/
theorem projectAt_zero_shipped : ∀ e ∈ shippedDispatchRom, ∀ n, projectAt e.builder 0 n = some n := by
  have h : ∀ e ∈ shippedDispatchRom, kindAt e.builder 0 = some .opFrag := by decide
  intro e he n
  rw [projectAt, if_pos (h e he)]

/-- R24 item 2: the first digit of every shipped key is one that selects the key's own shape. -/
theorem shapeOfFirst_key_shipped : ∀ e ∈ shippedDispatchRom, ∀ kp ∈ e.map,
    kp.1.n0.bind (fun n => shippedDispatchRom[shapeOfFirst n]?) = some e := by decide

/-- R24 item 2: a shape that hits stands where the first nibble points. -/
theorem shippedEntry_of_hitsIn {raw : Raw} {e : Entry} (he : e ∈ shippedDispatchRom)
    (h : hitsIn e raw = true) : shippedDispatchRom[shapeOfFirst (asNibbles raw).n0]? = some e := by
  obtain ⟨p, hp⟩ := Option.isSome_iff_exists.mp h
  have hkey := shapeOfFirst_key_shipped e he _ (mem_of_lookup hp)
  rwa [project, projectAt_zero_shipped e he] at hkey

/-- R24 item 2: two shapes that hit stand at the same place. -/
theorem shippedEntry_unique {raw : Raw} {e e' : Entry} (he : e ∈ shippedDispatchRom)
    (he' : e' ∈ shippedDispatchRom) (h : hitsIn e raw = true) (h' : hitsIn e' raw = true) : e' = e :=
  Option.some.inj ((shippedEntry_of_hitsIn he' h').symm.trans (shippedEntry_of_hitsIn he h))

/-- Settles O25: the first nibble alone gives the place of a shape that hits. -/
theorem shippedShapesNeverCompete : Obligations.ShippedShapesNeverCompete :=
  fun _ _ he hhit =>
    ⟨fun _ he' hhit' => shippedEntry_unique he he' hhit hhit', shippedEntry_of_hitsIn he hhit⟩

/-! ### The port codes -/

/-- R21: the row numbers of the shipped maps. -/
theorem index_le_shipped : ∀ e ∈ shippedDispatchRom, ∀ kp ∈ e.map, kp.2.index ≤ 33 := by decide

/-- R42: the ports of a hit. -/
theorem portsOf_hit {d : Dispatcher} {raw : Raw} {k : Nat} {p : Pattern} {ys : List Symbol}
    (hshape : shapeHit d raw = some k) (hdec : decode d raw = .known raw p ys) :
    (portsOf d raw).hitO = true ∧ (portsOf d raw).shapeO = BitVec.ofNat 3 k ∧
      (portsOf d raw).opcodeO = BitVec.ofNat 6 p.index := by
  rw [portsOf, hshape, hdec]
  exact ⟨rfl, rfl, rfl⟩

/-- R42, R124: the ports of an unknown word. -/
theorem portsOf_miss {d : Dispatcher} {raw : Raw} {y : Symbol} (hshape : shapeHit d raw = none)
    (hdec : decode d raw = .unknown raw [y]) :
    (portsOf d raw).hitO = false ∧ (portsOf d raw).shapeO = 7 ∧ (portsOf d raw).opcodeO = 63 ∧
      (portsOf d raw).nsymO = 1 := by
  rw [portsOf, hshape, hdec]
  exact ⟨rfl, rfl, rfl, rfl⟩

/-- Settles O33: a hit is at one of six positions and in a row of the shipped maps. -/
theorem portCodesStayInRange : Obligations.PortCodesStayInRange := by
  intro raw
  obtain ⟨k, e, p, he, hp, hshape, hdec⟩ | ⟨-, hshape, hdec⟩ :=
    decode_cases shippedDispatchRom raw
  · obtain ⟨hhit, hs, ho⟩ := portsOf_hit hshape hdec
    have hk : k < 6 := (List.getElem?_eq_some_iff.mp he).1
    have hrow : p.index ≤ 33 := index_le_shipped e (List.mem_of_getElem? he) _ (mem_of_lookup hp)
    refine ⟨fun _ => ?_, fun hmiss => absurd (hhit.symm.trans hmiss) (by decide), rfl, rfl⟩
    rw [hs, ho, BitVec.toNat_ofNat, BitVec.toNat_ofNat]
    omega
  · obtain ⟨hmiss, hs, ho, hn⟩ := portsOf_miss hshape hdec
    exact ⟨fun hhit => absurd (hmiss.symm.trans hhit) (by decide), fun _ => ⟨ho, hs, hn⟩, rfl, rfl⟩

/-! ### Counting words -/

theorem countP_or_of_disjoint {α : Type} (p q : α → Bool) (ws : List α)
    (h : ∀ w, p w = true → q w = false) :
    ws.countP (fun w => p w || q w) = ws.countP p + ws.countP q := by
  induction ws with
  | nil => rfl
  | cons w ws ih =>
    rw [List.countP_cons, List.countP_cons, List.countP_cons, ih]
    cases hp : p w
    · simp [Nat.add_assoc]
    · simp [h w hp, Nat.add_right_comm]

/-- Counting a disjunction of tests no two of which meet. -/
theorem countP_any {α β : Type} (Q : α → β → Bool) (ws : List β) {l : List α}
    (h : l.Pairwise fun x y => ∀ w, Q x w = true → Q y w = false) :
    ws.countP (fun w => l.any fun x => Q x w) = (l.map fun x => ws.countP (Q x)).sum := by
  induction l with
  | nil => simp
  | cons x l ih =>
    obtain ⟨hx, hl⟩ := List.pairwise_cons.mp h
    rw [List.map_cons, List.sum_cons, ← ih hl]
    refine countP_or_of_disjoint _ _ ws fun w hw => ?_
    rw [List.any_eq_false]
    exact fun y hy => by simp [hx y hy w hw]

theorem countP_and_left {α : Type} (c : Bool) (p : α → Bool) (ws : List α) :
    ws.countP (fun w => c && p w) = c.toNat * ws.countP p := by
  cases c <;> simp

theorem sum_map_toNat {α : Type} (p : α → Bool) (ws : List α) :
    (ws.map fun w => (p w).toNat).sum = ws.countP p := by
  induction ws with
  | nil => rfl
  | cons w ws ih =>
    rw [List.map_cons, List.sum_cons, ih, List.countP_cons, Nat.add_comm]
    cases p w <;> rfl

/-- Tests of the four nibbles are independent, so the words that pass them are counted by a product. -/
theorem countP_allWords (p0 p1 p2 p3 : Nibble → Bool) :
    allWords.countP (fun raw => p0 (asNibbles raw).n0 && (p1 (asNibbles raw).n1 &&
      (p2 (asNibbles raw).n2 && p3 (asNibbles raw).n3))) =
      nibbles.countP p0 * (nibbles.countP p1 * (nibbles.countP p2 * nibbles.countP p3)) := by
  simp only [allWords, List.countP_flatMap, List.countP_map, Function.comp_def, asNibbles_ofNibbles,
    countP_and_left, List.sum_map_mul_left, List.sum_map_mul_right, sum_map_toNat]

theorem length_allWords : allWords.length = 65536 := by
  simpa [nibbles] using countP_allWords (fun _ => true) (fun _ => true) (fun _ => true) fun _ => true

/-- How many words an entry projects onto a key, as the product over the positions. -/
def keyCount (e : Entry) (k : Key) : Nat :=
  nibbles.countP (fun n => decide (k.n0 = projectAt e.builder 0 n)) *
    (nibbles.countP (fun n => decide (k.n1 = projectAt e.builder 1 n)) *
      (nibbles.countP (fun n => decide (k.n2 = projectAt e.builder 2 n)) *
        nibbles.countP fun n => decide (k.n3 = projectAt e.builder 3 n)))

theorem countP_project (e : Entry) (k : Key) :
    allWords.countP (fun raw => decide (k = project e (asNibbles raw))) = keyCount e k := by
  rw [keyCount, ← countP_allWords]
  refine List.countP_congr fun raw _ => ?_
  obtain ⟨k0, k1, k2, k3⟩ := k
  simp only [project, Quad.mk.injEq, Bool.and_eq_true, decide_eq_true_iff]

/-- R24 item 3: the words that hit in an entry, key by key. -/
theorem countP_hitsIn {e : Entry} (h : (e.map.map Prod.fst).Nodup) :
    allWords.countP (hitsIn e) = (e.map.map fun kp => keyCount e kp.1).sum := by
  have hany : hitsIn e = fun raw => e.map.any fun kp => decide (kp.1 = project e (asNibbles raw)) := by
    funext raw
    rw [hitsIn, lookup_eq_find?, Option.isSome_map, Bool.eq_iff_iff, List.find?_isSome,
      List.any_eq_true]
  have hdisjoint : e.map.Pairwise fun kp kp' => ∀ raw,
      decide (kp.1 = project e (asNibbles raw)) = true →
        decide (kp'.1 = project e (asNibbles raw)) = false := by
    refine (List.pairwise_map.mp h).imp fun hne raw hraw => ?_
    rw [decide_eq_true_iff] at hraw
    rw [decide_eq_false_iff_not]
    exact fun hraw' => hne (hraw.trans hraw'.symm)
  rw [hany, countP_any _ _ hdisjoint]
  simp only [countP_project]

/-! ### How many words the shipped shapes know -/

/-- R24 item 3: the words each shipped shape knows. -/
theorem map_countP_hitsIn_shipped :
    (shippedDispatchRom.map fun e => allWords.countP (hitsIn e)) = [2, 16384, 20480, 2816, 4096, 176] := by
  have hnodup : ∀ e ∈ shippedDispatchRom, (e.map.map Prod.fst).Nodup := by decide
  rw [List.map_congr_left fun e he => countP_hitsIn (hnodup e he)]
  decide

/-- R24: the words known in some shape, since no word is known in two. -/
theorem countP_hitO_shipped :
    allWords.countP (fun raw => hitO (decode shippedDispatchRom raw)) = 43954 := by
  have hdisjoint : shippedDispatchRom.Pairwise fun e e' => ∀ raw, hitsIn e raw = true →
      hitsIn e' raw = false := by
    have hne : shippedDispatchRom.Pairwise (· ≠ ·) := by decide
    refine hne.imp_of_mem fun he he' hne raw hhit => ?_
    rw [← Bool.not_eq_true]
    exact fun hhit' => hne (shippedEntry_unique he' he hhit' hhit)
  simp only [hitO_decode_eq_any]
  rw [countP_any _ _ hdisjoint, map_countP_hitsIn_shipped]
  rfl

/-- R42: `shape_o` is the number of a shipped shape exactly when that shape hits. -/
theorem shapeO_eq_iff_hitsIn {k : Nat} {e : Entry} (he : shippedDispatchRom[k]? = some e) (raw : Raw) :
    (portsOf shippedDispatchRom raw).shapeO = BitVec.ofNat 3 k ↔ hitsIn e raw = true := by
  have hk : k < 6 := (List.getElem?_eq_some_iff.mp he).1
  have hmem := List.mem_of_getElem? he
  obtain ⟨j, e', p, he', hp, hshape, hdec⟩ | ⟨hmiss, hshape, hdec⟩ :=
    decode_cases shippedDispatchRom raw
  · obtain ⟨-, hs, -⟩ := portsOf_hit hshape hdec
    have hj : j < 6 := (List.getElem?_eq_some_iff.mp he').1
    have hjk : BitVec.ofNat 3 j = BitVec.ofNat 3 k ↔ j = k := by bv_omega
    rw [hs, hjk]
    constructor
    · rintro rfl
      obtain rfl : e = e' := Option.some.inj (he.symm.trans he')
      exact hitsIn_of_lookup hp
    · intro hhit
      obtain rfl := shippedEntry_unique hmem (List.mem_of_getElem? he') hhit (hitsIn_of_lookup hp)
      have hnodup : shippedDispatchRom.Nodup := by decide
      exact (List.getElem?_inj hj hnodup).mp (he'.trans he.symm)
  · obtain ⟨-, hs, -, -⟩ := portsOf_miss hshape hdec
    have h7 : (7 : BitVec 3) ≠ BitVec.ofNat 3 k := by bv_omega
    rw [hs, hitsIn, hmiss e hmem]
    exact iff_of_false h7 (by decide)

/-- R42: `shape_o` is 7 exactly when no shipped shape hits. -/
theorem shapeO_eq_seven_iff (raw : Raw) :
    (portsOf shippedDispatchRom raw).shapeO = 7 ↔ hitO (decode shippedDispatchRom raw) = false := by
  obtain ⟨hhit, hmiss, -, -⟩ := portCodesStayInRange raw
  constructor
  · intro h7
    rw [← Bool.not_eq_true]
    intro h
    obtain ⟨-, hle⟩ := hhit h
    rw [h7] at hle
    exact absurd hle (by decide)
  · intro h
    obtain ⟨-, hseven, -⟩ := hmiss h
    exact hseven

theorem countP_shapeO (ws : List Raw) {k : Nat} {e : Entry} (he : shippedDispatchRom[k]? = some e) :
    (ws.countP fun raw => (portsOf shippedDispatchRom raw).shapeO == BitVec.ofNat 3 k) =
      ws.countP (hitsIn e) :=
  List.countP_congr fun raw _ => by rw [beq_iff_eq, shapeO_eq_iff_hitsIn he]

theorem countP_shapeO_seven (ws : List Raw) :
    (ws.countP fun raw => (portsOf shippedDispatchRom raw).shapeO == 7) =
      ws.length - ws.countP fun raw => hitO (decode shippedDispatchRom raw) := by
  rw [List.length_eq_countP_add_countP fun raw => hitO (decode shippedDispatchRom raw),
    Nat.add_sub_cancel_left]
  refine List.countP_congr fun raw _ => ?_
  rw [beq_iff_eq, shapeO_eq_seven_iff, decide_eq_true_iff, Bool.not_eq_true]

/-- Settles O28: `shape_o` separates the words by the one shape that hits, and the rest are unknown. -/
theorem knownWordsAreCounted : Obligations.KnownWordsAreCounted := by
  refine ⟨length_allWords, ?_, countP_hitO_shipped⟩
  have hknown : (([0, 1, 2, 3, 4, 5] : List (BitVec 3)).map fun k =>
      allWords.countP fun raw => (portsOf shippedDispatchRom raw).shapeO == k) =
      shippedDispatchRom.map fun e => allWords.countP (hitsIn e) := by
    simp only [shippedDispatchRom, List.map_cons, List.map_nil, List.cons.injEq, and_true]
    exact ⟨countP_shapeO _ (k := 0) rfl, countP_shapeO _ (k := 1) rfl, countP_shapeO _ (k := 2) rfl,
      countP_shapeO _ (k := 3) rfl, countP_shapeO _ (k := 4) rfl, countP_shapeO _ (k := 5) rfl⟩
  have hall : ([0, 1, 2, 3, 4, 5, 7] : List (BitVec 3)) = [0, 1, 2, 3, 4, 5] ++ [7] := rfl
  rw [hall, List.map_append, hknown, map_countP_hitsIn_shipped, List.map_singleton,
    countP_shapeO_seven, length_allWords, countP_hitO_shipped]
  rfl

end Sys2Proof.Machine
end

section
/-! PROOFS. The bytes and nibbles of a raw instruction (20_memory.md R50 to R53), the frame of a decode
(R56), and what a step leaves of the stream (R54). -/

namespace Sys2Proof.Machine

/-! ### Raw instructions as bytes and nibbles -/

/-- R50: the bytes of a raw instruction can be read back from its word. -/
theorem word_injective : Function.Injective Raw.word :=
  Function.LeftInverse.injective ofWord_word

/-- Settles O5: the word's value weighs the first byte by 256, and equal words have equal first bytes. -/
theorem instructionBytesAreBigEndian : Obligations.InstructionBytesAreBigEndian := by
  refine fun b0 b1 => ⟨toNat_word ⟨b0, b1⟩, fun hswap => ?_, fun heq => heq ▸ rfl⟩
  exact (congrArg Raw.b0 (word_injective hswap)).symm

/-- Settles O4: the nibbles are the quotients and remainders of the bytes by 16, and joined again they
are the word. -/
theorem nibblesOfARawInstruction : Obligations.NibblesOfARawInstruction := fun raw =>
  ⟨toNat_highNibble raw.b0, toNat_lowNibble raw.b0, toNat_highNibble raw.b1, toNat_lowNibble raw.b1,
    rfl, nibblesToInt_asNibbles raw,
    (congrArg BitVec.toNat (word_eq_joinNibbles raw)).trans (toNat_joinNibbles ..)⟩

/-- Settles O8, by the length of the list: no byte, one, two, or more. -/
theorem rawInstructionTakesTwoBytes : Obligations.RawInstructionTakesTwoBytes := by
  refine ⟨fun _ _ => rfl, fun bs hlen => ?_⟩
  match bs with
  | [] => rfl
  | [_] => rfl
  | [_, _] => exact absurd rfl hlen
  | _ :: _ :: _ :: _ => rfl

/-! ### The frame of a decode -/

/-- Settles O48: an instruction presents the same word from every state, which touches neither the ROMs
nor the reader, and presenting that word again overwrites the outputs with what they hold. -/
theorem decodingHasNoSideEffect : Obligations.DecodingHasNoSideEffect := by
  intro i s
  obtain ⟨raw, hpresents⟩ := exec_presents_uniformly i
  refine ⟨s.present raw, hpresents s, rfl, rfl, rfl, rfl, rfl, ?_⟩
  rw [hpresents, present_present]

/-! ### What a step leaves of the stream -/

/-- R54, R125: only a dangling byte keeps a step from going on. -/
theorem exists_step_next {s : State} (h : s.stream.length ≠ 1) : ∃ t, step s = .next t := by
  match hs : s.stream with
  | [] => exact ⟨s.undrive, step_nil hs⟩
  | [b] => exact absurd (congrArg List.length hs) h
  | b0 :: b1 :: rest =>
    obtain ⟨raw, hraw⟩ := exec_presents (decodeWord (Raw.word ⟨b0, b1⟩)) (s.advance rest)
    exact ⟨(s.advance rest).present raw, (step_cons hs).trans hraw⟩

/-- R54, R145: a step that goes on takes one chunk off the stream, or nothing off an empty one. -/
theorem step_stream {s t : State} (h : step s = .next t) : t.stream = s.stream.drop 2 := by
  obtain ⟨hs, rfl⟩ | ⟨b0, b1, rest, raw, hs, rfl⟩ := step_cases h <;> simp [hs]

/-- Settles O58: a stream of even length never ends in a dangling byte, and without one chunk its length
is still even. -/
theorem everyStepKeepsTheStreamWhole : Obligations.EveryStepKeepsTheStreamWhole := by
  intro s hwhole
  obtain ⟨t, hstep⟩ := exists_step_next (s := s) (by omega)
  refine ⟨t, hstep, ?_⟩
  rw [State.WholeStream, step_stream hstep, List.length_drop]
  omega

end Sys2Proof.Machine
end

section
/-! PROOFS. The encoding of instructions (30_encoding.md R70 to R93): the operand fields of a word of known
nibbles, the words that match the rows of the encoding table, and the round trips between words and
instructions. -/

namespace Sys2Proof.Machine

open Sys2Proof.Claims
open Sys2Proof.Laws.RowMatch (rowName of_instr)

/-! ### The operand fields of a word of known nibbles -/

@[simp] theorem and_fifteen (n : Nibble) : n &&& 15#4 = n := BitVec.and_allOnes

@[simp] theorem and_ffff (w : Word) : w &&& 65535#16 = w := BitVec.and_allOnes

/-- A statement about words is one about their nibbles. -/
theorem forall_word_iff {P : Word → Prop} : (∀ w, P w) ↔ ∀ a b c d, P (joinNibbles a b c d) :=
  ⟨fun h _ _ _ _ => h _, fun h w => exists_joinNibbles w ▸ h ..⟩

/-- R11, R72: the four nibble fields of a word are the nibbles it is joined from. -/
theorem nibbleFields_joinNibbles (a b c d : Nibble) :
    (⟨nibbleOf (joinNibbles a b c d) 0, fieldX (joinNibbles a b c d), fieldY (joinNibbles a b c d),
      fieldN (joinNibbles a b c d)⟩ : Quad Nibble) = ⟨a, b, c, d⟩ := by
  rw [Quad.mk.injEq, ← joinNibbles_inj]
  exact exists_joinNibbles _

@[simp] theorem nibbleOf_zero_joinNibbles (a b c d : Nibble) : nibbleOf (joinNibbles a b c d) 0 = a :=
  congrArg Quad.n0 (nibbleFields_joinNibbles a b c d)

@[simp] theorem fieldX_joinNibbles (a b c d : Nibble) : fieldX (joinNibbles a b c d) = b :=
  congrArg Quad.n1 (nibbleFields_joinNibbles a b c d)

@[simp] theorem fieldY_joinNibbles (a b c d : Nibble) : fieldY (joinNibbles a b c d) = c :=
  congrArg Quad.n2 (nibbleFields_joinNibbles a b c d)

@[simp] theorem fieldN_joinNibbles (a b c d : Nibble) : fieldN (joinNibbles a b c d) = d :=
  congrArg Quad.n3 (nibbleFields_joinNibbles a b c d)

theorem fieldNN_eq_append (w : Word) : fieldNN w = fieldY w ++ fieldN w :=
  (BitVec.extractLsb'_append_extractLsb'_eq_extractLsb' (start₁ := 0) (len₁ := 4) (len₂ := 4) rfl).symm

@[simp] theorem fieldNN_joinNibbles (a b c d : Nibble) : fieldNN (joinNibbles a b c d) = c ++ d := by
  rw [fieldNN_eq_append, fieldY_joinNibbles, fieldN_joinNibbles]

/-- Format S1: a word is its first nibble and its constant. -/
theorem append_fieldNNN (w : Word) : nibbleOf w 0 ++ fieldNNN w = w :=
  (BitVec.extractLsb'_append_extractLsb'_eq_extractLsb' (start₁ := 0) (len₁ := 12) (len₂ := 4) rfl).trans
    BitVec.extractLsb'_eq_self

@[simp] theorem append_fieldNNN_joinNibbles (a b c d : Nibble) :
    (a ++ fieldNNN (joinNibbles a b c d) : Word) = joinNibbles a b c d := by
  simpa using append_fieldNNN (joinNibbles a b c d)

@[simp] theorem fieldNNN_append (op : Nibble) (nnn : BitVec 12) : fieldNNN (op ++ nnn) = nnn :=
  BitVec.extractLsb'_append_eq_right

/-! ### The rows are disjoint -/

/-- R85: two masked compares that ask one bit for different values never hold of one word. -/
theorem not_hits_both {r r' : EncRow} (h : r.value &&& r'.mask ≠ r'.value &&& r.mask) (w : Word) :
    ¬ (r.hits w = true ∧ r'.hits w = true) := by
  rintro ⟨hr, hr'⟩
  rw [EncRow.hits, beq_iff_eq] at hr hr'
  exact h (by rw [← hr, ← hr', BitVec.and_assoc, BitVec.and_assoc, BitVec.and_comm r.mask])

theorem encTable_pairwise_disjoint :
    encTable.Pairwise fun r r' => ∀ w : Word, ¬ (r.hits w = true ∧ r'.hits w = true) := by
  have h : encTable.Pairwise fun r r' => r.value &&& r'.mask ≠ r'.value &&& r.mask := by decide
  exact h.imp not_hits_both

/-- R85: a word reads as the instruction of any row that it matches. -/
theorem decodeWord_of_hits {r : EncRow} (hr : r ∈ encTable) {w : Word} (hw : r.hits w = true) :
    decodeWord w = r.instr w := by
  obtain ⟨pre, post, htable⟩ := List.append_of_mem hr
  have hdisjoint := encTable_pairwise_disjoint
  rw [htable, List.pairwise_append] at hdisjoint
  obtain ⟨-, -, hpre⟩ := hdisjoint
  have hfind : encTable.find? (fun r => r.hits w) = some r := by
    refine List.find?_eq_some_iff_append.mpr ⟨hw, pre, post, htable, fun r' hr' => ?_⟩
    simpa [hw] using hpre r' hr' r List.mem_cons_self w
  rw [decodeWord, hfind]

/-- R87: a word that matches no row reads as the fallback. -/
theorem decodeWord_of_no_hit {w : Word} (h : ∀ r ∈ encTable, r.hits w = false) :
    decodeWord w = .unknown w := by
  have hfind : encTable.find? (fun r => r.hits w) = none :=
    List.find?_eq_none.mpr fun r hr => by simp [h r hr]
  rw [decodeWord, hfind]

/-- Settles O36: no two rows ask the same bits for the same values. -/
theorem encodingRowsAreDisjoint : Obligations.EncodingRowsAreDisjoint :=
  ⟨fun _ hr _ => decodeWord_of_hits hr, encTable_pairwise_disjoint, fun _ => decodeWord_of_no_hit⟩

/-! ### From a word to its instruction and back -/

/-- R84: the instruction of a word that matches the row encodes to that word. -/
def RowEncodes (r : EncRow) : Prop := ∀ w, r.hits w = true → encodeWord (r.instr w) = w

/-- Each row fixes the bits of a word outside its operands, so the word is its row's digits and its operand
fields joined again, format by format (R72). -/
theorem rowEncodes_encTable : ∀ r ∈ encTable, RowEncodes r := by
  simp only [encTable, List.forall_mem_append, and_assoc]
  refine ⟨?S0, ?S1, ?S2, ?S3, ?S4, ?S5⟩
  case S0 => simp +contextual [encRowsS0, RowEncodes, EncRow.hits, encodeWord]
  case S1 =>
    simp +contextual [encRowsS1, RowEncodes, forall_word_iff, hits_joinNibbles, encodeWord]
  case S2 =>
    simp +contextual [encRowsS2, RowEncodes, forall_word_iff, hits_joinNibbles, encodeWord,
      append_byte]
  case S3 =>
    simp +contextual [encRowsS3, RowEncodes, forall_word_iff, hits_joinNibbles, encodeWord,
      append_nibbles]
  case S4 =>
    simp +contextual [encRowsS4, RowEncodes, forall_word_iff, hits_joinNibbles, encodeWord,
      append_nibbles]
  case S5 =>
    simp +contextual [encRowsS5, RowEncodes, forall_word_iff, hits_joinNibbles, encodeWord,
      append_byte, highNibble, lowNibble]

/-- R210: no row's instruction is the fallback. -/
theorem wellFormed_instr_encTable : ∀ r ∈ encTable, ∀ w, (r.instr w).WellFormed := by
  simp [encTable, encRowsS0, encRowsS1, encRowsS2, encRowsS3, encRowsS4, encRowsS5, Instr.WellFormed,
    Instr.wellFormed]

/-- R210: a fallback is well-formed when its word matches no row. -/
theorem wellFormed_unknown_iff {w : Word} :
    (Instr.unknown w).WellFormed ↔ ∀ r ∈ encTable, r.hits w = false := by
  simp [Instr.WellFormed, Instr.wellFormed]

/-- Settles O39: by the row the word matches, or by the fallback when it matches none. -/
theorem encodeOfDecode : Obligations.EncodeOfDecode := by
  intro w
  by_cases h : ∃ r ∈ encTable, r.hits w = true
  · obtain ⟨r, hr, hw⟩ := h
    rw [decodeWord_of_hits hr hw]
    exact ⟨wellFormed_instr_encTable r hr w, rowEncodes_encTable r hr w hw⟩
  · have hmiss : ∀ r ∈ encTable, r.hits w = false := by simpa using h
    rw [decodeWord_of_no_hit hmiss]
    exact ⟨wellFormed_unknown_iff.mpr hmiss, rfl⟩

/-! ### From an instruction to its word and back -/

/-- R84: the instruction's own row is among these rows, and reads its operands back from its word. -/
def ReadBackBy (rows : List EncRow) (i : Instr) : Prop :=
  ∃ r ∈ rows, rowName i = some r.mnemonic ∧ r.instr (encodeWord i) = i

theorem readBackBy_append {rows rows' : List EncRow} {i : Instr} :
    ReadBackBy (rows ++ rows') i ↔ ReadBackBy rows i ∨ ReadBackBy rows' i := by
  simp [ReadBackBy, or_and_right, exists_or]

/-- R84: every instruction but the fallback has its row among those of its format (R72). -/
theorem readBackBy_encTable {i : Instr} (h : ∀ w, i ≠ .unknown w) : ReadBackBy encTable i := by
  simp only [encTable, readBackBy_append, or_assoc]
  cases i
  case unknown w => exact absurd rfl (h w)
  case clear | ret =>
    refine .inl ?_
    simp [ReadBackBy, encRowsS0, rowName]
  case goto | call | seti | jumpr =>
    refine .inr (.inl ?_)
    simp [ReadBackBy, encRowsS1, rowName, encodeWord]
  case sieq | sine | setr | addi | rand =>
    refine .inr (.inr (.inl ?_))
    simp [ReadBackBy, encRowsS2, rowName, encodeWord, append_byte]
  case sreq | copy | or | and | xor | add | sub | shiftr | subn | shiftl | srne =>
    refine .inr (.inr (.inr (.inl ?_)))
    simp [ReadBackBy, encRowsS3, rowName, encodeWord, append_nibbles]
  case draw =>
    refine .inr (.inr (.inr (.inr (.inl ?_))))
    simp [ReadBackBy, encRowsS4, rowName, encodeWord, append_nibbles]
  case skpr | sknp | rdel | key | tdel | tsnd | iadd | char | dec | dump | load =>
    refine .inr (.inr (.inr (.inr (.inr ?_))))
    simp [ReadBackBy, encRowsS5, rowName, encodeWord, append_byte]

/-- The row that an instruction's word is read by is the instruction's own, since no two rows share a
mnemonic. -/
theorem decodeWord_encodeWord {i : Instr} (hi : i.WellFormed) : decodeWord (encodeWord i) = i := by
  by_cases h : ∃ w, i = .unknown w
  · obtain ⟨w, rfl⟩ := h
    exact decodeWord_of_no_hit (wellFormed_unknown_iff.mp hi)
  · obtain ⟨r, hr, hname, hread⟩ := readBackBy_encTable (not_exists.mp h)
    obtain ⟨r', hfind, hname'⟩ := Option.map_eq_some_iff.mp ((of_instr i hi).trans hname)
    have hnodup : (encTable.map EncRow.mnemonic).Nodup := by decide
    obtain rfl : r' = r :=
      List.inj_on_of_nodup_map hnodup (List.mem_of_find?_eq_some hfind) hr hname'
    rw [decodeWord, hfind]
    exact hread

/-- R50, R70: the two bytes of a raw instruction are read as its word, whatever follows them. -/
theorem decodeBytes_bytes_append (raw : Raw) (rest : List Byte) :
    decodeBytes (raw.bytes ++ rest) = .ok (decodeWord raw.word, rest) := rfl

/-- Settles O38: the bytes of an instruction are those of its word. -/
theorem decodeOfEncode : Obligations.DecodeOfEncode := by
  refine fun i hi => ⟨decodeWord_encodeWord hi, fun rest => ?_⟩
  rw [encode, decodeBytes_bytes_append, word_ofWord, decodeWord_encodeWord hi]

/-! ### One instruction length -/

theorem decodeTableWord_sixteen (w : Nat) :
    decodeTableWord 16 w = some (decodeWord (BitVec.ofNat 16 w)) := by
  have h := decodeBytes_bytes_append (Raw.ofWord (BitVec.ofNat 16 w)) []
  rw [List.append_nil, word_ofWord] at h
  simp [decodeTableWord, h]

theorem decodeTableWord_of_ne_sixteen {nbits : Nat} (h : nbits ≠ 16) (w : Nat) :
    decodeTableWord nbits w = none := by
  simp [decodeTableWord, h]

/-- R53, R54: fewer than two bytes hold no instruction. -/
theorem decodeBytes_of_length_lt_two {bs : List Byte} (h : bs.length < 2) :
    ∃ e, decodeBytes bs = .error e := by
  match bs with
  | [] => exact ⟨_, rfl⟩
  | [_] => exact ⟨_, rfl⟩
  | _ :: _ :: _ => simp at h

/-- Settles O59: the reader takes two bytes, in file order, and no other number of bits is a word. -/
theorem everyInstructionIsOneWord : Obligations.EveryInstructionIsOneWord :=
  ⟨fun _ => rfl, fun _ w h => decodeTableWord_of_ne_sixteen h w,
    fun w => by rw [decodeTableWord_sixteen, BitVec.ofNat_toNat, BitVec.setWidth_eq],
    fun _ => decodeBytes_of_length_lt_two, fun b0 b1 => decodeBytes_bytes_append ⟨b0, b1⟩⟩

/-! ### Words written out, and the digits of a constant -/

/-- Settles O35, by evaluating the decoder on the ten words. -/
theorem wordsReadAsTheSpecEncodes : Obligations.WordsReadAsTheSpecEncodes := by
  unfold Obligations.WordsReadAsTheSpecEncodes
  decide

/-- R140: the digit computed from its character code is the one in the list of sixteen. -/
theorem hexDigit_eq_hexChar : ∀ v : Nibble, hexDigit v = hexChar v := by decide

/-- Settles O7: the text is `0x` and the digits, and each digit is the listed one. -/
theorem hexTextHasOneDigitPerNibble : Obligations.HexTextHasOneDigitPerNibble := by
  intro ns
  rw [nibblesToHex, String.toList_append, String.toList_ofList, funext hexDigit_eq_hexChar]
  rfl

/-! ### The encoding table and the pattern ROM -/

/-- Settles O37, by comparing the two transcriptions row by row. -/
theorem encodingTableAgreesWithThePatternRom : Obligations.EncodingTableAgreesWithThePatternRom := by
  unfold Obligations.EncodingTableAgreesWithThePatternRom
  decide

/-- R84, R21: a word matches a row of the encoding table exactly when some match line of the pattern ROM
is 1. -/
theorem any_hits_encTable (w : Word) :
    encTable.any (fun r => r.hits w) = shippedPatternRom.any (matchLine w) := by
  have h := encodingTableAgreesWithThePatternRom.any_eq (f := fun t => w &&& t.2.1 == t.2.2)
  rwa [List.any_map, List.any_map] at h

/-! ### The rows that the shipped dispatch ROM decodes -/

theorem compiledEntry_shipped : ∀ e ∈ shippedDispatchRom, CompiledEntry e :=
  compiledEntry_of_compileDispatcher compileDispatcher_shippedTable

/-- R13, R23: in a map with no key twice a lookup gives exactly the map's elements. -/
theorem lookup_eq_some_iff {m : List (Key × Pattern)} (hm : (m.map Prod.fst).Nodup) {k : Key}
    {p : Pattern} : lookup m k = some p ↔ (k, p) ∈ m := by
  refine ⟨mem_of_lookup, fun h => ?_⟩
  induction m with
  | nil => cases h
  | cons kp m ih =>
    obtain ⟨hkp, hm⟩ := List.nodup_cons.mp hm
    rw [lookup_cons]
    obtain rfl | h := List.mem_cons.mp h
    · exact if_pos rfl
    · have hne : kp.1 ≠ k := fun heq => hkp (heq ▸ List.mem_map_of_mem h)
      rw [if_neg hne, ih hm h]

/-- R122: in a compiled entry with no key twice a word hits a row exactly when its match line is 1. -/
theorem CompiledEntry.lookup_eq_some_iff_matchLine {e : Entry} (h : CompiledEntry e)
    (hnodup : (e.map.map Prod.fst).Nodup) {raw : Raw} {p : Pattern} :
    lookup e.map (project e (asNibbles raw)) = some p ↔
      (p.fixedTuple, p) ∈ e.map ∧ matchLine raw.word p = true := by
  rw [lookup_eq_some_iff hnodup]
  constructor
  · intro hmem
    obtain ⟨-, -, hkey⟩ := h.rows _ hmem
    have hline := h.matchLine_eq hmem raw
    exact ⟨hkey ▸ hmem, hline.trans (decide_eq_true rfl)⟩
  · rintro ⟨hmem, hline⟩
    rw [h.matchLine_eq hmem, decide_eq_true_iff] at hline
    exact hline ▸ hmem

/-- R110: in a shipped shape a word hits a row exactly when its match line is 1. -/
theorem lookup_shipped_iff {e : Entry} (he : e ∈ shippedDispatchRom) {raw : Raw} {p : Pattern} :
    lookup e.map (project e (asNibbles raw)) = some p ↔
      (p.fixedTuple, p) ∈ e.map ∧ matchLine raw.word p = true := by
  have hnodup : ∀ e ∈ shippedDispatchRom, (e.map.map Prod.fst).Nodup := by decide
  exact (compiledEntry_shipped e he).lookup_eq_some_iff_matchLine (hnodup e he)

/-- R24 item 2: under the shipped dispatch ROM the first shape that hits is the only one. -/
theorem decode_shipped_of_lookup {e : Entry} (he : e ∈ shippedDispatchRom) {raw : Raw} {p : Pattern}
    (hp : lookup e.map (project e (asNibbles raw)) = some p) :
    decode shippedDispatchRom raw = .known raw p (build e.builder (asNibbles raw).toList) := by
  obtain ⟨k, e', p', he', hp', -, hdec⟩ | ⟨hmiss, -, -⟩ := decode_cases shippedDispatchRom raw
  · obtain rfl : e' = e := shippedEntry_unique he (List.mem_of_getElem? he') (hitsIn_of_lookup hp)
      (hitsIn_of_lookup hp')
    rw [hdec, Option.some.inj (hp'.symm.trans hp)]
  · exact absurd ((hmiss e he).symm.trans hp) (by simp)

/-- R85: under the shipped dispatch ROM a word decodes to a row of the pattern ROM exactly when the row's
match line is 1. -/
theorem decode_shipped_known_iff {raw : Raw} {p : Pattern} :
    (∃ ys, decode shippedDispatchRom raw = .known raw p ys) ↔
      p ∈ shippedPatternRom ∧ matchLine raw.word p = true := by
  constructor
  · rintro ⟨ys, hknown⟩
    have hrom : ∀ e ∈ shippedDispatchRom, ∀ kp ∈ e.map, kp.2 ∈ shippedPatternRom := by decide
    obtain ⟨k, e, p', he, hp, -, hdec⟩ | ⟨-, -, hdec⟩ := decode_cases shippedDispatchRom raw
    · obtain ⟨-, rfl, -⟩ := Decoded.known.inj (hknown.symm.trans hdec)
      have hmem := List.mem_of_getElem? he
      obtain ⟨hrow, hline⟩ := (lookup_shipped_iff hmem).mp hp
      exact ⟨hrom e hmem _ hrow, hline⟩
    · cases hknown.symm.trans hdec
  · rintro ⟨hp, hline⟩
    have hheld : ∀ p ∈ shippedPatternRom, ∃ e ∈ shippedDispatchRom, (p.fixedTuple, p) ∈ e.map := by
      decide
    obtain ⟨e, he, hrow⟩ := hheld p hp
    exact ⟨_, decode_shipped_of_lookup he ((lookup_shipped_iff he).mpr ⟨hrow, hline⟩)⟩

/-- Settles O26: the row's match line is its masked compare. -/
theorem rowIsDecodedExactlyOnItsMask : Obligations.RowIsDecodedExactlyOnItsMask := by
  intro w p hp
  rw [decode_shipped_known_iff, word_ofWord, matchLine, beq_iff_eq, and_iff_right hp]

/-! ### The unknown words -/

/-- R42: `hit_o` is 1 exactly when the result is `Known`. -/
theorem hitO_decode_iff {d : Dispatcher} {raw : Raw} :
    hitO (decode d raw) = true ↔ ∃ p ys, decode d raw = .known raw p ys := by
  obtain ⟨_, _, _, -, -, -, hdec⟩ | ⟨-, -, hdec⟩ := decode_cases d raw <;> simp [hdec, hitO]

/-- R84, R87: the block knows a word under the shipped dispatch ROM exactly when the word matches a row of
the encoding table. -/
theorem hitO_decode_shipped_eq (w : Word) :
    hitO (decode shippedDispatchRom (Raw.ofWord w)) = encTable.any fun r => r.hits w := by
  rw [any_hits_encTable, Bool.eq_iff_iff, hitO_decode_iff, List.any_eq_true]
  simp only [decode_shipped_known_iff, word_ofWord]

theorem nibbleOf_three_eq (w : Word) : nibbleOf w 3 = fieldN w := rfl

theorem byte_eq_iff {c d : Nibble} {b : Byte} : c ++ d = b ↔ c = highNibble b ∧ d = lowNibble b := by
  constructor
  · rintro rfl
    simp
  · rintro ⟨rfl, rfl⟩
    exact highNibble_append_lowNibble b

/-- The words of format S0 (R72). -/
theorem any_hits_S0 {w : Word} : (encRowsS0.any fun r => r.hits w) = true ↔
    nibbleOf w 0 = 0 ∧ (w = 0x00E0 ∨ w = 0x00EE) := by
  have hfirst : w = 0x00E0 ∨ w = 0x00EE → nibbleOf w 0 = 0 := by rintro (rfl | rfl) <;> rfl
  rw [and_iff_right_of_imp hfirst]
  simp [encRowsS0, EncRow.hits]

/-- R73: the words of format S1, by their first nibble and their fixed digits. -/
theorem any_hits_S1 : ∀ {w : Word}, (encRowsS1.any fun r => r.hits w) = true ↔
    nibbleOf w 0 ∈ ([1, 2, 10, 11] : List Nibble) := by
  simp [forall_word_iff, encRowsS1, hits_joinNibbles]

/-- R73: the words of format S2, by their first nibble and their fixed digits. -/
theorem any_hits_S2 : ∀ {w : Word}, (encRowsS2.any fun r => r.hits w) = true ↔
    nibbleOf w 0 ∈ ([3, 4, 6, 7, 12] : List Nibble) := by
  simp [forall_word_iff, encRowsS2, hits_joinNibbles]

/-- R73: the words of format S3, by their first nibble and their fixed digits. -/
theorem any_hits_S3 : ∀ {w : Word}, (encRowsS3.any fun r => r.hits w) = true ↔
    (nibbleOf w 0 = 5 ∧ nibbleOf w 3 = 0) ∨
    (nibbleOf w 0 = 8 ∧ nibbleOf w 3 ∈ ([0, 1, 2, 3, 4, 5, 6, 7, 14] : List Nibble)) ∨
    (nibbleOf w 0 = 9 ∧ nibbleOf w 3 = 0) := by
  simp [forall_word_iff, encRowsS3, hits_joinNibbles, nibbleOf_three_eq, and_or_left, or_assoc]

/-- R73: the words of format S4, by their first nibble and their fixed digits. -/
theorem any_hits_S4 : ∀ {w : Word}, (encRowsS4.any fun r => r.hits w) = true ↔ nibbleOf w 0 = 13 := by
  simp [forall_word_iff, encRowsS4, hits_joinNibbles]

/-- R73: the words of format S5, by their first nibble and their fixed digits. -/
theorem any_hits_S5 : ∀ {w : Word}, (encRowsS5.any fun r => r.hits w) = true ↔
    (nibbleOf w 0 = 14 ∧ fieldNN w ∈ ([0x9E, 0xA1] : List (BitVec 8))) ∨
    (nibbleOf w 0 = 15 ∧
        fieldNN w ∈ ([0x07, 0x0A, 0x15, 0x18, 0x1E, 0x29, 0x33, 0x55, 0x65] : List (BitVec 8))) := by
  simp [forall_word_iff, encRowsS5, hits_joinNibbles, byte_eq_iff, highNibble, lowNibble,
    and_or_left, or_assoc]

theorem nibble_cases : ∀ a : Nibble, a = 0 ∨ a = 1 ∨ a = 2 ∨ a = 3 ∨ a = 4 ∨ a = 5 ∨ a = 6 ∨ a = 7 ∨
    a = 8 ∨ a = 9 ∨ a = 10 ∨ a = 11 ∨ a = 12 ∨ a = 13 ∨ a = 14 ∨ a = 15 := by decide

/-- Settles O27: each first nibble leaves at most one format open, and a word of that nibble is unknown when
it has none of the format's fixed digits. -/
theorem unknownWordsExhaustively : Obligations.UnknownWordsExhaustively := by
  intro w
  have hlow : ∀ d : Nibble, d ∈ ([8, 9, 10, 11, 12, 13, 15] : List Nibble) ↔
      d ∉ ([0, 1, 2, 3, 4, 5, 6, 7, 14] : List Nibble) := by decide
  rw [hitO_decode_shipped_eq, ← Bool.not_eq_true, hlow]
  simp only [encTable, List.any_append, Bool.or_eq_true, any_hits_S0, any_hits_S1, any_hits_S2,
    any_hits_S3, any_hits_S4, any_hits_S5]
  generalize nibbleOf w 0 = a
  obtain rfl | rfl | rfl | rfl | rfl | rfl | rfl | rfl | rfl | rfl | rfl | rfl | rfl | rfl | rfl | rfl :=
    nibble_cases a <;> simp

end Sys2Proof.Machine
end

section
/-! PROOFS. Patterns, masks and builders (40_table_compilation.md R100 to R107): the alphabet, the two masks
of a compiled pattern, and the runs of a mask with the check on them. -/

namespace Sys2Proof.Machine

open Sys2Proof.Claims

/-! ### The pattern alphabet -/

/-- R6, R101: a character of the alphabet is a digit or a symbol, and never both. -/
theorem patChar_cases {c : Char} {a : PatChar} (h : patChar c = some a) :
    (∃ v, hexVal c = some v ∧ symChar c = none ∧ a = .hex v) ∨
      ∃ y, hexVal c = none ∧ symChar c = some y ∧ a = .sym y := by
  have hdigit : ∀ v, symChar (hexDigit v) = none := by decide
  match hv : hexVal c, hy : symChar c with
  | some v, _ =>
    obtain rfl : .hex v = a := by simpa [patChar, hv] using h
    exact .inl ⟨v, rfl, hy ▸ hexDigit_of_hexVal hv ▸ hdigit v, rfl⟩
  | none, some y => exact .inr ⟨y, rfl, rfl, by simpa [patChar, hv, hy] using h.symm⟩
  | none, none => simp [patChar, hv, hy] at h

/-- R6: the alphabet is the sixteen digits and the symbol characters. -/
theorem mem_alphabet_iff (c : Char) :
    c ∈ alphabet ↔ (∃ v, hexDigit v = c) ∨ c = 'N' ∨ c = 'X' ∨ c = 'Y' := by
  have hsplit : alphabet = nibbles.map hexDigit ++ ['N', 'X', 'Y'] := by decide
  have hall : ∀ v, v ∈ nibbles := by decide
  simp [hsplit, hall]

/-- R101: the characters that a pattern reads are those of the alphabet. -/
theorem exists_patChar_iff (c : Char) : (∃ a, patChar c = some a) ↔ c ∈ alphabet := by
  rw [mem_alphabet_iff]
  constructor
  · rintro ⟨a, ha⟩
    obtain ⟨v, hv, -, -⟩ | ⟨y, -, hy, -⟩ := patChar_cases ha
    · exact .inl ⟨v, hexDigit_of_hexVal hv⟩
    · refine .inr ?_
      unfold symChar at hy
      split at hy <;> simp at hy ⊢
  · rintro (⟨v, rfl⟩ | rfl | rfl | rfl)
    · exact ⟨.hex v, by simp [patChar]⟩
    · exact ⟨.sym .N, by decide⟩
    · exact ⟨.sym .X, by decide⟩
    · exact ⟨.sym .Y, by decide⟩

/-- R101: four characters of the alphabet are validated, each read as it stands. -/
theorem validate_eq_ok {p : String} (hlen : p.toList.length = 4) (hall : ∀ c ∈ p.toList, c ∈ alphabet) :
    ∃ q, validate p = .ok q ∧ List.Forall₂ (fun c a => patChar c = some a) p.toList q.toList := by
  obtain ⟨_, _, _, _, hp⟩ := List.length_eq_four.mp hlen
  simp only [hp, List.forall_mem_cons, ← exists_patChar_iff] at hall ⊢
  obtain ⟨⟨a, ha⟩, ⟨b, hb⟩, ⟨c, hc⟩, ⟨d, hd⟩, -⟩ := hall
  exact ⟨⟨a, b, c, d⟩, by simp only [validate, hp, ha, hb, hc, hd],
    by simp [Quad.toList, ha, hb, hc, hd]⟩

/-- R101, R221: any other string is malformed. -/
theorem validate_eq_error {p : String}
    (h : ¬ (p.toList.length = 4 ∧ ∀ c ∈ p.toList, c ∈ alphabet)) :
    validate p = .error (.malformedPattern p) := by
  unfold validate
  split
  next hp =>
    split
    next ha hb hc hd => simp [hp, ← exists_patChar_iff, ha, hb, hc, hd] at h
    next => rfl
  next => rfl

/-- Two lists related element by element have equal images under functions that agree along the relation. -/
theorem map_eq_map_of_forall₂ {α β γ : Type} {R : α → β → Prop} {f : α → γ} {g : β → γ} {l : List α}
    {l' : List β} (h : List.Forall₂ R l l') (hfg : ∀ a b, R a b → f a = g b) : l.map f = l'.map g := by
  rw [← List.forall₂_eq_eq_eq, List.forall₂_map_left_iff, List.forall₂_map_right_iff]
  exact h.imp hfg

theorem toList_map {α β : Type} (f : α → β) (q : Quad α) : (q.map f).toList = q.toList.map f := rfl

/-- Settles O9: validation reads each character as a digit or as a symbol, which the two masks then hold. -/
theorem patternsCompileExactlyOverTheAlphabet : Obligations.PatternsCompileExactlyOverTheAlphabet := by
  refine ⟨fun p m i hbad => by rw [compilePattern, validate_eq_error hbad], fun p m i hlen hall => ?_⟩
  obtain ⟨q, hok, hq⟩ := validate_eq_ok hlen hall
  refine ⟨_, by rw [compilePattern, hok], rfl, rfl, rfl, ?_, ?_⟩ <;> rw [toList_map] <;>
    refine (map_eq_map_of_forall₂ hq fun c a ha => ?_).symm <;>
    obtain ⟨v, hv, hy, rfl⟩ | ⟨y, hv, hy, rfl⟩ := patChar_cases ha <;>
    simp [hv, hy, fixedChar, variableChar]

/-! ### The masks of a compiled pattern -/

theorem fixedChar_eq_placeholder_iff (c : PatChar) :
    fixedChar c = .placeholder ↔ variableChar c ≠ .placeholder := by
  cases c <;> simp [fixedChar, variableChar]

theorem fixedNibble_eq_none_iff (c : PatChar) :
    fixedNibble (fixedChar c) = none ↔ ∃ y, variableChar c = .pat (.sym y) := by
  cases c <;> simp [fixedChar, variableChar, fixedNibble]

/-- Settles O10, position by position of the validated pattern. -/
theorem masksAndTupleOfAPatternAgree : Obligations.MasksAndTupleOfAPatternAgree := by
  intro p m i r hr
  obtain ⟨q, -, rfl⟩ := compilePattern_ok hr
  have hchar : ∀ k, k < 4 → ∃ c, q.toList[k]? = some c := fun k hk => ⟨_, List.getElem?_eq_getElem hk⟩
  refine ⟨rfl, fun k hk => ?_, fun k hk => ?_⟩ <;> obtain ⟨c, hc⟩ := hchar k hk <;>
    simp only [toList_map, List.getElem?_map, hc, Option.map_some, Option.some.injEq]
  · exact fixedChar_eq_placeholder_iff c
  · exact fixedNibble_eq_none_iff c

/-! ### Runs and builders -/

/-- R105: adjacent runs have different characters, since a character joins an equal run after it. -/
theorem isChain_runs (m : List MaskChar) : (runs m).IsChain fun a b => a.char ≠ b.char := by
  induction m with
  | nil => exact .nil
  | cons c m ih =>
    rw [runs]
    split
    next => exact .singleton _
    next r rs hr =>
      rw [hr, List.isChain_cons] at ih
      obtain ⟨hhead, htail⟩ := ih
      split
      next hc => exact List.isChain_cons.mpr ⟨hc ▸ hhead, htail⟩
      next hc => simpa [List.isChain_cons, Ne.symm hc] using ⟨hhead, htail⟩

/-- Settles O11. -/
theorem runsAreMaximal : Obligations.RunsAreMaximal := fun m =>
  ⟨flatMap_replicate_runs m, one_le_len_of_mem_runs, isChain_runs m⟩

theorem len_le_totalLen {b : Builder} {r : Run} (h : r ∈ b) : r.len ≤ totalLen b :=
  List.le_sum_of_mem (List.mem_map_of_mem h)

theorem length_le_totalLen {b : Builder} (h : ∀ r ∈ b, 1 ≤ r.len) : b.length ≤ totalLen b := by
  simpa [totalLen] using List.card_nsmul_le_sum (b.map Run.len) 1 (by simpa using h)

/-- Settles O12: the kinds of a builder are those of the mask's characters, and its lengths sum to 4. -/
theorem derivedBuildersCoverFourNibbles : Obligations.DerivedBuildersCoverFourNibbles := by
  intro m
  have htotal := totalLen_deriveBuilder m
  have hpos : ∀ r ∈ deriveBuilder m, 1 ≤ r.len := fun _ => one_le_len_of_mem_deriveBuilder
  refine ⟨runKinds_deriveBuilder m, by simp [deriveBuilder], htotal,
    fun r hr => ⟨hpos r hr, htotal ▸ len_le_totalLen hr⟩, ?_, htotal ▸ length_le_totalLen hpos⟩
  rw [Nat.one_le_iff_ne_zero, Ne, List.length_eq_zero_iff]
  intro hnil
  rw [hnil] at htotal
  cases htotal

/-! ### The check on runs -/

/-- R107: the runs that have a meaning. -/
theorem runSupported_iff (r : Run) :
    runSupported r = true ↔ (r.kind = .register → r.len = 1) ∧ (r.kind = .constant → r.len ≤ 3) := by
  obtain ⟨kind, len⟩ := r
  cases kind with
  | register => simp [runSupported, Config.maxRegisterRun]
  | constant => simp [runSupported, show Config.maxConstantRun = 3 from rfl]
  | opFrag => simp [runSupported]

/-- R107: what the check can answer: every run is supported, or the first one that is not is reported. -/
theorem checkRuns_cases (b : Builder) :
    (checkRuns b = .ok () ∧ ∀ r ∈ b, runSupported r = true) ∨
      ∃ pre r post, b = pre ++ r :: post ∧ checkRuns b = .error (.unsupportedRun r.kind r.len) ∧
        checkRuns pre = .ok () ∧ ¬ runSupported r = true := by
  induction b with
  | nil => exact .inl ⟨rfl, by simp⟩
  | cons r b ih =>
    by_cases hr : runSupported r = true
    · have hcons : ∀ b, checkRuns (r :: b) = checkRuns b := fun b => by rw [checkRuns, if_pos hr]
      obtain ⟨hok, hall⟩ | ⟨pre, r', post, rfl, herr, hpre, hr'⟩ := ih
      · exact .inl ⟨(hcons b).trans hok, List.forall_mem_cons.mpr ⟨hr, hall⟩⟩
      · exact .inr ⟨r :: pre, r', post, rfl, (hcons _).trans herr, (hcons pre).trans hpre, hr'⟩
    · exact .inr ⟨[], r, b, rfl, by rw [checkRuns, if_neg hr], rfl, hr⟩

theorem checkRuns_eq_ok_iff {b : Builder} : checkRuns b = .ok () ↔ ∀ r ∈ b, runSupported r = true := by
  obtain ⟨hok, hall⟩ | ⟨pre, r, post, rfl, herr, -, hr⟩ := checkRuns_cases b
  · exact iff_of_true hok hall
  · exact iff_of_false (by simp [herr]) fun hall => hr (hall r (by simp))

/-- Settles O13: the check stops at the first run that is not supported. -/
theorem unsupportedRunsAreRefused : Obligations.UnsupportedRunsAreRefused := by
  refine fun b => ⟨by simp only [checkRuns_eq_ok_iff, runSupported_iff], fun f hf => ?_⟩
  obtain ⟨hok, -⟩ | ⟨pre, r, post, rfl, herr, hpre, hr⟩ := checkRuns_cases b
  · cases hok.symm.trans hf
  · refine ⟨pre, r, post, rfl, Except.error.inj (hf.symm.trans herr), hpre, ?_⟩
    simpa [runSupported_iff, imp_iff_not_or, not_and_or] using hr

end Sys2Proof.Machine
end

section
/-! PROOFS. The compilation of a table (40_table_compilation.md R108 to R110, 60_exceptions.md R229): its rows
one after another, the canonical form of what they leave, and what is held under a shape and key. -/

namespace Sys2Proof.Machine

open Sys2Proof.Claims

/-! ### Row after row -/

theorem compileFrom_append {idx : Nat} {d d₁ : Dispatcher} {t : Table}
    (h : compileFrom idx d t = .ok d₁) (t' : Table) :
    compileFrom idx d (t ++ t') = compileFrom (idx + t.length) d₁ t' := by
  induction t generalizing idx d with
  | nil =>
    cases h
    rfl
  | cons row rest ih =>
    obtain ⟨p, e, hp, hr, hrest⟩ := compileFrom_cons_inv h
    rw [List.cons_append, compileFrom_cons_ok hp hr, ih hrest, List.length_cons, Nat.add_right_comm,
      Nat.add_assoc]

/-- R110: the rows before a row are compiled without regard to it. -/
theorem compileDispatcher_append {t : Table} {d : Dispatcher} (h : compileDispatcher t = .ok d)
    (t' : Table) : compileDispatcher (t ++ t') = compileFrom t.length d t' := by
  rw [compileDispatcher, compileFrom_append h, Nat.zero_add]

/-- What a compilation of the pattern ROM did with its first row. -/
theorem compilePatterns_cons_iff {idx : Nat} {row : String × String} {rest : Table} {ps : List Pattern} :
    compilePatterns idx (row :: rest) = .ok ps ↔
      ∃ p ps', compilePattern row.1 row.2 idx = .ok p ∧ compilePatterns (idx + 1) rest = .ok ps' ∧
        ps = p :: ps' := by
  rw [compilePatterns]
  match compilePattern row.1 row.2 idx with
  | .error f => simp
  | .ok p =>
    match compilePatterns (idx + 1) rest with
    | .error f => simp
    | .ok ps' => simp [eq_comm]

/-- R254: a table that gives a dispatcher gives a pattern ROM. -/
theorem exists_compilePatterns {idx : Nat} {d d' : Dispatcher} {t : Table}
    (h : compileFrom idx d t = .ok d') : ∃ ps, compilePatterns idx t = .ok ps := by
  induction t generalizing idx d with
  | nil => exact ⟨[], rfl⟩
  | cons row rest ih =>
    obtain ⟨p, e, hp, -, hrest⟩ := compileFrom_cons_inv h
    obtain ⟨ps, hps⟩ := ih hrest
    exact ⟨p :: ps, compilePatterns_cons_iff.mpr ⟨p, ps, hp, hps, rfl⟩⟩

theorem compileFrom_patterns_induction {motive : List Pattern → Dispatcher → Prop}
    (hstep : ∀ {hp mn idx p ps d d'}, compilePattern hp mn idx = .ok p → registerPattern d p = .ok d' →
      motive ps d → motive (ps ++ [p]) d')
    {idx : Nat} {d d' : Dispatcher} {t : Table} {seen ps : List Pattern}
    (hd : compileFrom idx d t = .ok d') (hps : compilePatterns idx t = .ok ps) (h : motive seen d) :
    motive (seen ++ ps) d' := by
  induction t generalizing idx d seen ps with
  | nil =>
    cases hd
    cases hps
    rwa [List.append_nil]
  | cons row rest ih =>
    obtain ⟨p, e, hp, hr, hrest⟩ := compileFrom_cons_inv hd
    obtain ⟨p', ps', hp', hps', rfl⟩ := compilePatterns_cons_iff.mp hps
    obtain rfl := Except.ok.inj (hp.symm.trans hp')
    rw [List.append_cons]
    exact ih hrest hps' (hstep hp hr h)

/-- A relation between the rows registered so far and the dispatcher holds of a table's pattern ROM and its
dispatcher when it holds of none and every registration keeps it. -/
theorem compileDispatcher_induction {motive : List Pattern → Dispatcher → Prop} (hnil : motive [] [])
    (hstep : ∀ {hp mn idx p ps d d'}, compilePattern hp mn idx = .ok p → registerPattern d p = .ok d' →
      motive ps d → motive (ps ++ [p]) d')
    {t : Table} {d : Dispatcher} {ps : List Pattern} (hd : compileDispatcher t = .ok d)
    (hps : compilePatterns 0 t = .ok ps) : motive ps d :=
  compileFrom_patterns_induction hstep hd hps hnil

/-- Settles O15: the rows before the failing one give the dispatcher at which it fails. -/
theorem firstFailingRowEndsTheBuild : Obligations.FirstFailingRowEndsTheBuild := by
  intro t rest hp mn d f hd hfail
  have herr : compileDispatcher (t ++ (hp, mn) :: rest) = .error f := by
    rw [compileDispatcher_append hd, compileFrom]
    obtain hp | ⟨p, hp, hr⟩ := hfail
    · simp only [hp]
    · simp only [hp, hr]
  exact ⟨herr, by rw [powerOn, herr]⟩

/-! ### The shapes in the order first met -/

theorem firstMet_concat (ms : List (Quad MaskChar)) (m : Quad MaskChar) :
    firstMet (ms ++ [m]) = if m ∈ firstMet ms then firstMet ms else firstMet ms ++ [m] := by
  simp only [firstMet, List.foldl_append, List.foldl_cons, List.foldl_nil]
  congr

theorem mem_firstMet {ms : List (Quad MaskChar)} {m : Quad MaskChar} : m ∈ firstMet ms ↔ m ∈ ms := by
  induction ms using List.reverseRecOn with
  | nil => rfl
  | append_singleton ms m' ih =>
    rw [firstMet_concat]
    split
    next h => simp [ih, or_iff_left_of_imp (fun hm : m = m' => ih.mp (hm ▸ h))]
    next => simp [ih]

/-- R22: a mask that stands earlier was first met earlier. -/
theorem pairwise_idxOf_firstMet (ms : List (Quad MaskChar)) :
    (firstMet ms).Pairwise fun a b => ms.idxOf a < ms.idxOf b := by
  induction ms using List.reverseRecOn with
  | nil => exact .nil
  | append_singleton ms m ih =>
    have hidx : ∀ a ∈ firstMet ms, (ms ++ [m]).idxOf a = ms.idxOf a := fun a ha =>
      List.idxOf_append_of_mem (mem_firstMet.mp ha)
    have hold : (firstMet ms).Pairwise fun a b => (ms ++ [m]).idxOf a < (ms ++ [m]).idxOf b :=
      ih.imp_of_mem fun ha hb hab => by rwa [hidx _ ha, hidx _ hb]
    rw [firstMet_concat]
    split
    next => exact hold
    next hm =>
      refine List.pairwise_append.mpr ⟨hold, List.pairwise_singleton _ _, fun a ha b hb => ?_⟩
      rw [List.mem_singleton.mp hb, hidx a ha, List.idxOf_append_of_notMem (mt mem_firstMet.mpr hm)]
      exact Nat.lt_add_right _ (List.idxOf_lt_length_of_mem (mem_firstMet.mp ha))

theorem nodup_firstMet (ms : List (Quad MaskChar)) : (firstMet ms).Nodup :=
  (pairwise_idxOf_firstMet ms).imp fun h => by
    rintro rfl
    exact h.false

/-- R110: registering a pattern meets its mask. -/
theorem variableMasks_registerPattern {d d' : Dispatcher} {p : Pattern}
    (h : registerPattern d p = .ok d') :
    d'.map Entry.variableMask =
      if p.variableMask ∈ d.map Entry.variableMask then d.map Entry.variableMask
      else d.map Entry.variableMask ++ [p.variableMask] := by
  obtain ⟨pre, e, post, rfl, -, he, rfl⟩ | ⟨hnew, -, rfl⟩ := registerPattern_cases h
  · simp [he]
  · have hmem : p.variableMask ∉ d.map Entry.variableMask := by simpa using hnew
    rw [if_neg hmem, List.map_append, List.map_singleton]

/-- R22, R110: the shapes stand in the order in which their masks are first met. -/
theorem variableMasks_eq_firstMet {t : Table} {d : Dispatcher} {ps : List Pattern}
    (hd : compileDispatcher t = .ok d) (hps : compilePatterns 0 t = .ok ps) :
    d.map Entry.variableMask = firstMet (ps.map Pattern.variableMask) := by
  refine compileDispatcher_induction
    (motive := fun ps d => d.map Entry.variableMask = firstMet (ps.map Pattern.variableMask))
    rfl (fun _ hr ih => ?_) hd hps
  rw [variableMasks_registerPattern hr, ih, List.map_append, List.map_singleton, firstMet_concat]

theorem nodup_variableMasks {t : Table} {d : Dispatcher} (hd : compileDispatcher t = .ok d) :
    (d.map Entry.variableMask).Nodup := by
  obtain ⟨ps, hps⟩ := exists_compilePatterns hd
  exact variableMasks_eq_firstMet hd hps ▸ nodup_firstMet _

/-! ### The canonical form -/

/-- R107 to R110: what registration adds to the form of an entry: its runs passed the check, and its map has
keys, none of them twice. -/
structure RegisteredEntry (e : Entry) : Prop where
  supported : checkRuns (deriveBuilder e.variableMask) = .ok ()
  nodup_keys : (e.map.map Prod.fst).Nodup
  map_ne_nil : e.map ≠ []

theorem mapInsert_ne_nil (m : List (Key × Pattern)) (k : Key) (p : Pattern) : mapInsert m k p ≠ [] := by
  cases m with
  | nil => simp [mapInsert]
  | cons kp m =>
    rw [mapInsert]
    split <;> simp

theorem nodup_keys_mapInsert {m : List (Key × Pattern)} (h : (m.map Prod.fst).Nodup) (k : Key)
    (p : Pattern) : ((mapInsert m k p).map Prod.fst).Nodup := by
  rw [keys_mapInsert]
  split
  next => exact h
  next hk => exact List.concat_eq_append ▸ h.concat hk

theorem registerPattern_registeredEntry {d d' : Dispatcher} {p : Pattern}
    (hr : registerPattern d p = .ok d') (hd : ∀ e ∈ d, RegisteredEntry e) :
    ∀ e ∈ d', RegisteredEntry e := by
  obtain ⟨pre, e, post, rfl, -, -, rfl⟩ | ⟨-, hruns, rfl⟩ := registerPattern_cases hr
  · rw [List.forall_mem_append, List.forall_mem_cons] at hd ⊢
    obtain ⟨hpre, hent, hpost⟩ := hd
    exact ⟨hpre, ⟨hent.supported, nodup_keys_mapInsert hent.nodup_keys _ _, mapInsert_ne_nil _ _ _⟩,
      hpost⟩
  · rw [List.forall_mem_append, List.forall_mem_singleton]
    exact ⟨hd, hruns, by simp, by simp⟩

theorem registeredEntry_of_compileDispatcher {t : Table} {d : Dispatcher}
    (h : compileDispatcher t = .ok d) : ∀ e ∈ d, RegisteredEntry e :=
  compileFrom_induction (motive := fun d => ∀ e ∈ d, RegisteredEntry e)
    (fun _ => registerPattern_registeredEntry) h (by simp)

/-- R108: the tuple of a compiled pattern fits its variable mask. -/
theorem keyFits_fixedTuple {hp mn : String} {idx : Nat} {p : Pattern}
    (h : compilePattern hp mn idx = .ok p) : keyFits p.variableMask p.fixedTuple = true := by
  have hchar : ∀ c, (fixedNibble (fixedChar c)).isSome = (variableChar c == .placeholder) := by
    rintro (v | y) <;> rfl
  obtain ⟨q, -, rfl⟩ := compilePattern_ok h
  simp [keyFits, Quad.map, hchar]

theorem CompiledEntry.wf {e : Entry} (hc : CompiledEntry e) (hr : RegisteredEntry e) :
    Entry.wf e = true := by
  have hrows : ∀ kp ∈ e.map, keyFits e.variableMask kp.1 = true ∧ kp.2.fixedTuple = kp.1 ∧
      kp.2.variableMask = e.variableMask := fun kp hkp => by
    obtain ⟨⟨_, _, _, hp⟩, hmask, hkey⟩ := hc.rows kp hkp
    exact ⟨hkey ▸ hmask ▸ keyFits_fixedTuple hp, hkey.symm, hmask⟩
  have hruns := checkRuns_eq_ok_iff.mp hr.supported
  simp only [Entry.wf, hc.builder_eq, beq_self_eq_true, Bool.true_and, Bool.and_eq_true, List.all_eq_true,
    beq_iff_eq, decide_eq_true_iff, and_assoc]
  exact ⟨hruns, hrows, hr.nodup_keys⟩

/-- Settles O16: every registration keeps each entry's form, and no mask gets a second entry. -/
theorem compiledDispatchersAreCanonical : Obligations.CompiledDispatchersAreCanonical := by
  intro t d hd
  have hreg := registeredEntry_of_compileDispatcher hd
  have hwf : ∀ e ∈ d, Entry.wf e = true := fun e he =>
    (compiledEntry_of_compileDispatcher hd e he).wf (hreg e he)
  refine ⟨?_, fun e he => (hreg e he).map_ne_nil⟩
  rw [Dispatcher.wf, Bool.and_eq_true, List.all_eq_true, decide_eq_true_iff]
  exact ⟨hwf, nodup_variableMasks hd⟩

/-! ### What is held under a shape and key -/

theorem heldUnder_nil (m : Quad MaskChar) (k : Key) : heldUnder [] m k = none := rfl

theorem heldUnder_cons (e : Entry) (d : Dispatcher) (m : Quad MaskChar) (k : Key) :
    heldUnder (e :: d) m k = if e.variableMask = m then lookup e.map k else heldUnder d m k := by
  by_cases he : e.variableMask = m <;> simp [heldUnder, he]

theorem heldUnder_append (pre d : Dispatcher) (m : Quad MaskChar) (k : Key) :
    heldUnder (pre ++ d) m k =
      if m ∈ pre.map Entry.variableMask then heldUnder pre m k else heldUnder d m k := by
  induction pre with
  | nil => simp
  | cons e pre ih =>
    rw [List.cons_append, heldUnder_cons, heldUnder_cons, ih]
    by_cases he : e.variableMask = m
    · simp [he]
    · simp [he, Ne.symm he]

theorem heldUnder_of_not_mem {d : Dispatcher} {m : Quad MaskChar} (h : m ∉ d.map Entry.variableMask)
    (k : Key) : heldUnder d m k = none := by
  have happend := heldUnder_append d [] m k
  rwa [List.append_nil, if_neg h] at happend

/-- R109: registering a pattern writes it under its own shape and key, and nothing else. -/
theorem heldUnder_registerPattern {d d' : Dispatcher} {p : Pattern} (h : registerPattern d p = .ok d')
    (m : Quad MaskChar) (k : Key) :
    heldUnder d' m k =
      if m = p.variableMask ∧ k = p.fixedTuple then some p else heldUnder d m k := by
  obtain ⟨pre, e, post, rfl, hpre, he, rfl⟩ | ⟨hnew, -, rfl⟩ := registerPattern_cases h
  · have hmem : p.variableMask ∉ pre.map Entry.variableMask := by simpa using hpre
    by_cases hm : m = p.variableMask
    · simp [heldUnder_append, heldUnder_cons, hm, hmem, he, lookup_mapInsert, eq_comm]
    · simp [heldUnder_append, heldUnder_cons, hm, Ne.symm hm, he]
  · have hmem : p.variableMask ∉ d.map Entry.variableMask := by simpa using hnew
    rw [heldUnder_append, heldUnder_cons]
    by_cases hm : m = p.variableMask
    · simp only [hm, hmem, heldUnder_of_not_mem hmem, if_false, if_true, true_and, lookup_cons,
        lookup_nil, eq_comm]
    · by_cases hd : m ∈ d.map Entry.variableMask
      · simp only [hm, hd, if_true, if_false, false_and]
      · simp only [hm, hd, Ne.symm hm, heldUnder_of_not_mem hd, heldUnder_nil, if_false, false_and]

/-- Settles O14: the added row is the last one registered; the lint is looked at after the dispatcher is
built. -/
theorem laterRowShadowsEarlier : Obligations.LaterRowShadowsEarlier := by
  refine ⟨fun t hp mn d d' p hd hp hd' m k => ?_, fun lint t => ?_⟩
  · rw [compileDispatcher_append hd] at hd'
    obtain ⟨p', d₁, hp', hr, hrest⟩ := compileFrom_cons_inv hd'
    obtain rfl := Except.ok.inj (hp.symm.trans hp')
    cases hrest
    exact heldUnder_registerPattern hr m k
  · match hd : compileDispatcher t with
    | .error f => simp [compileWithLint, hd]
    | .ok d =>
      obtain ⟨ps, hps⟩ := exists_compilePatterns hd
      exact ⟨if lint then collisions ps else [], by simp only [compileWithLint, hd, hps]⟩

/-- R109, R110: what is held is the last row with this shape and key. -/
theorem heldUnder_eq_find? {t : Table} {d : Dispatcher} {ps : List Pattern}
    (hd : compileDispatcher t = .ok d) (hps : compilePatterns 0 t = .ok ps) (m : Quad MaskChar)
    (k : Key) :
    heldUnder d m k = ps.reverse.find? fun p => decide (m = p.variableMask ∧ k = p.fixedTuple) := by
  refine compileDispatcher_induction
    (motive := fun ps d => heldUnder d m k =
      ps.reverse.find? fun p => decide (m = p.variableMask ∧ k = p.fixedTuple))
    rfl (fun {_ _ _ p} _ _ _ _ hr ih => ?_) hd hps
  rw [heldUnder_registerPattern hr, ih, List.reverse_append, List.reverse_singleton,
    List.singleton_append, List.find?_cons]
  by_cases h : m = p.variableMask ∧ k = p.fixedTuple <;> simp [h]

/-- What is held is a row with this shape and key. -/
theorem row_of_heldUnder {t : Table} {d : Dispatcher} {ps : List Pattern}
    (hd : compileDispatcher t = .ok d) (hps : compilePatterns 0 t = .ok ps) {m : Quad MaskChar} {k : Key}
    {p : Pattern} (h : heldUnder d m k = some p) :
    p ∈ ps ∧ p.variableMask = m ∧ p.fixedTuple = k := by
  rw [heldUnder_eq_find? hd hps] at h
  have hp := List.find?_some h
  obtain ⟨hm, hk⟩ := of_decide_eq_true hp
  exact ⟨List.mem_reverse.mp (List.mem_of_find?_eq_some h), hm.symm, hk.symm⟩

/-- R109: a row's shape holds something under the row's key: the row, or one that shadows it. -/
theorem exists_heldUnder_of_row {t : Table} {d : Dispatcher} {ps : List Pattern}
    (hd : compileDispatcher t = .ok d) (hps : compilePatterns 0 t = .ok ps) {q : Pattern} (hq : q ∈ ps) :
    ∃ p, heldUnder d q.variableMask q.fixedTuple = some p := by
  rw [heldUnder_eq_find? hd hps, ← Option.isSome_iff_exists, List.find?_isSome]
  exact ⟨q, List.mem_reverse.mpr hq, by simp⟩

theorem exists_entry_of_heldUnder {d : Dispatcher} {m : Quad MaskChar} {k : Key} {p : Pattern}
    (h : heldUnder d m k = some p) : ∃ e ∈ d, e.variableMask = m ∧ lookup e.map k = some p := by
  induction d with
  | nil => cases h
  | cons e d ih =>
    rw [heldUnder_cons] at h
    split at h
    next he => exact ⟨e, List.mem_cons_self, he, h⟩
    next =>
      obtain ⟨e', he', hlookup⟩ := ih h
      exact ⟨e', List.mem_cons_of_mem _ he', hlookup⟩

/-- R22: where no mask has two entries, what is held under a shape is what its entry's map holds. -/
theorem heldUnder_of_mem {d : Dispatcher} (hd : (d.map Entry.variableMask).Nodup) {e : Entry}
    (he : e ∈ d) (k : Key) : heldUnder d e.variableMask k = lookup e.map k := by
  obtain ⟨pre, post, rfl⟩ := List.append_of_mem he
  have hmem : e.variableMask ∉ pre.map Entry.variableMask := by
    rw [List.map_append, List.nodup_append] at hd
    obtain ⟨-, -, hdisjoint⟩ := hd
    exact fun hpre => hdisjoint _ hpre _ List.mem_cons_self rfl
  rw [heldUnder_append, if_neg hmem, heldUnder_cons, if_pos rfl]

end Sys2Proof.Machine
end

section
/-! PROOFS. Words under a compiled table (40_table_compilation.md R113, 41_decode_resolution.md R123): the
literals of a pattern and the order of the shapes. -/

namespace Sys2Proof.Machine

open Sys2Proof.Claims

/-! ### The literals of a pattern -/

/-- R113: in a compiled entry with no key twice a word that agrees with a key looks its row up. -/
theorem CompiledEntry.lookup_of_agrees {e : Entry} (h : CompiledEntry e)
    (hnodup : (e.map.map Prod.fst).Nodup) {kp : Key × Pattern} (hkp : kp ∈ e.map) {raw : Raw}
    (hraw : agrees raw kp.1) : lookup e.map (project e (asNibbles raw)) = some kp.2 :=
  (lookup_eq_some_iff hnodup).mpr ((h.key_eq_project_iff hkp raw).mpr hraw ▸ hkp)

/-- Settles O18: a row's key is its tuple, onto which the word projects; a shipped word hits in one shape. -/
theorem compiledPatternsMatchTheirLiterals : Obligations.CompiledPatternsMatchTheirLiterals := by
  have hlookup : ∀ (t : Table) (d : Dispatcher), compileDispatcher t = .ok d →
      ∀ e ∈ d, ∀ kp ∈ e.map, ∀ raw : Raw, agrees raw kp.2.fixedTuple →
        lookup e.map (project e (asNibbles raw)) = some kp.2 := by
    intro t d hd e he kp hkp raw hraw
    have hent := compiledEntry_of_compileDispatcher hd e he
    obtain ⟨-, -, hkey⟩ := hent.rows kp hkp
    exact hent.lookup_of_agrees (registeredEntry_of_compileDispatcher hd e he).nodup_keys hkp (hkey ▸ hraw)
  exact ⟨hlookup, fun e he kp hkp raw hraw => decode_shipped_of_lookup he
    (hlookup shippedTable _ compileDispatcher_shippedTable e he kp hkp raw hraw)⟩

/-! ### The order of the shapes -/

/-- R120: a known word hits in an entry and in none before it. -/
theorem entry_of_decode_known {d : Dispatcher} {raw raw' : Raw} {p : Pattern} {ys : List Symbol}
    (h : decode d raw = .known raw' p ys) :
    ∃ pre e post, d = pre ++ e :: post ∧
      (∀ e' ∈ pre, lookup e'.map (project e' (asNibbles raw)) = none) ∧
      lookup e.map (project e (asNibbles raw)) = some p := by
  induction d with
  | nil => cases h
  | cons e d ih =>
    match hl : lookup e.map (project e (asNibbles raw)) with
    | some p' =>
      rw [decode_cons_hit hl] at h
      cases h
      exact ⟨[], e, d, rfl, by simp, hl⟩
    | none =>
      rw [decode_cons_miss hl] at h
      obtain ⟨pre, e', post, rfl, hpre, he'⟩ := ih h
      exact ⟨e :: pre, e', post, rfl, List.forall_mem_cons.mpr ⟨hl, hpre⟩, he'⟩

/-- R113: a word that agrees with a row hits in the row's shape, even where the row is shadowed. -/
theorem exists_entry_of_agrees {t : Table} {d : Dispatcher} {ps : List Pattern}
    (hd : compileDispatcher t = .ok d) (hps : compilePatterns 0 t = .ok ps) {q : Pattern} (hq : q ∈ ps)
    {raw : Raw} (hraw : agrees raw q.fixedTuple) :
    ∃ e ∈ d, e.variableMask = q.variableMask ∧
      ∃ p, lookup e.map (project e (asNibbles raw)) = some p := by
  obtain ⟨p, hp⟩ := exists_heldUnder_of_row hd hps hq
  obtain ⟨e, he, hmask, hlookup⟩ := exists_entry_of_heldUnder hp
  exact ⟨e, he, hmask, p, (compiledEntry_of_compileDispatcher hd e he).lookup_of_agrees
    (registeredEntry_of_compileDispatcher hd e he).nodup_keys (mem_of_lookup hlookup) hraw⟩

/-- R123: the shape in which a word is found was met no later than any shape of a row it agrees with. -/
theorem idxOf_le_of_decode_known {t : Table} {d : Dispatcher} {ps : List Pattern}
    (hd : compileDispatcher t = .ok d) (hps : compilePatterns 0 t = .ok ps) {raw : Raw} {p : Pattern}
    {ys : List Symbol} (hdec : decode d raw = .known raw p ys) :
    p ∈ ps ∧ ∀ q ∈ ps, agrees raw q.fixedTuple →
      (ps.map Pattern.variableMask).idxOf p.variableMask ≤
        (ps.map Pattern.variableMask).idxOf q.variableMask := by
  obtain ⟨pre, e, post, hsplit, hpre, hp⟩ := entry_of_decode_known hdec
  have he : e ∈ d := hsplit ▸ List.mem_append_cons_self
  rw [← heldUnder_of_mem (nodup_variableMasks hd) he] at hp
  obtain ⟨hmem, hmask, -⟩ := row_of_heldUnder hd hps hp
  refine ⟨hmem, fun q hq hraw => ?_⟩
  obtain ⟨e', he', hmask', p', hp'⟩ := exists_entry_of_agrees hd hps hq hraw
  rw [hmask, ← hmask']
  have horder := pairwise_idxOf_firstMet (ps.map Pattern.variableMask)
  rw [← variableMasks_eq_firstMet hd hps, hsplit, List.map_append, List.map_cons, List.pairwise_append,
    List.pairwise_cons] at horder
  obtain ⟨-, ⟨hpost, -⟩, -⟩ := horder
  rw [hsplit, List.mem_append, List.mem_cons] at he'
  obtain hbefore | rfl | hafter := he'
  · cases (hpre e' hbefore).symm.trans hp'
  · exact le_rfl
  · exact (hpost _ (List.mem_map_of_mem hafter)).le

/-- R123: the row `1NNN` `GOTO` of the example, compiled as row `idx`. -/
def exampleGoto (idx : Nat) : Pattern :=
  ⟨"1NNN", "GOTO", ⟨Rom.h 1, Rom.u, Rom.u, Rom.u⟩, ⟨Rom.u, Rom.sN, Rom.sN, Rom.sN⟩,
    ⟨some 1, none, none, none⟩, idx⟩

/-- R123: the row `1XNN` `FOO` of the example, compiled as row `idx`. -/
def exampleFoo (idx : Nat) : Pattern :=
  ⟨"1XNN", "FOO", ⟨Rom.h 1, Rom.u, Rom.u, Rom.u⟩, ⟨Rom.u, Rom.sX, Rom.sN, Rom.sN⟩,
    ⟨some 1, none, none, none⟩, idx⟩

/-- R110: the entry that a row starts. -/
def newEntry (p : Pattern) : Entry := ⟨p.variableMask, deriveBuilder p.variableMask, [(p.fixedTuple, p)]⟩

theorem compileDispatcher_goto_foo :
    compileDispatcher [("1NNN", "GOTO"), ("1XNN", "FOO")] =
      .ok [newEntry (exampleGoto 0), newEntry (exampleFoo 1)] := by decide

theorem compileDispatcher_foo_goto :
    compileDispatcher [("1XNN", "FOO"), ("1NNN", "GOTO")] =
      .ok [newEntry (exampleFoo 0), newEntry (exampleGoto 1)] := by decide

theorem decode_newEntry {p : Pattern} {d : Dispatcher} {raw : Raw}
    (h : p.fixedTuple = project (newEntry p) (asNibbles raw)) :
    ∃ ys, decode (newEntry p :: d) raw = .known raw p ys :=
  ⟨_, decode_cons_hit (if_pos h)⟩

/-- Settles O23; in R123's example every word 0x1xxx projects onto the key of the row that comes first. -/
theorem shapeOrderDecidesBetweenShapes : Obligations.ShapeOrderDecidesBetweenShapes :=
  ⟨fun _ _ _ hd hps => ⟨variableMasks_eq_firstMet hd hps, fun _ _ _ => idxOf_le_of_decode_known hd hps⟩,
    _, _, exampleGoto 0, exampleFoo 0, compileDispatcher_goto_foo, compileDispatcher_foo_goto, rfl, rfl,
    fun a b c => ⟨decode_newEntry (asNibbles_ofNibbles 1 a b c ▸ rfl),
      decode_newEntry (asNibbles_ofNibbles 1 a b c ▸ rfl)⟩⟩

end Sys2Proof.Machine
end

section
/-! PROOFS. Permuted tables (40_table_compilation.md R111): rows without their numbers, tables without
collisions, and the words under both. -/

namespace Sys2Proof.Machine

open Sys2Proof.Claims

/-! ### The rows of a permuted table -/

/-- R111: a row without its number in the table. -/
def Pattern.unnumbered (p : Pattern) : Pattern := { p with index := 0 }

@[simp] theorem Pattern.unnumbered_variableMask (p : Pattern) :
    p.unnumbered.variableMask = p.variableMask := rfl

@[simp] theorem Pattern.unnumbered_fixedTuple (p : Pattern) :
    p.unnumbered.fixedTuple = p.fixedTuple := rfl

@[simp] theorem content_unnumbered (p : Pattern) : content p.unnumbered = content p := rfl

/-- R103: a row's number plays no part in its compilation. -/
theorem compilePattern_unnumbered {hp mn : String} {idx : Nat} {p : Pattern}
    (h : compilePattern hp mn idx = .ok p) : compilePattern hp mn 0 = .ok p.unnumbered := by
  obtain ⟨q, hq, rfl⟩ := compilePattern_ok h
  rw [compilePattern, hq]
  rfl

theorem map_unnumbered_eq_filterMap {idx : Nat} {t : Table} {ps : List Pattern}
    (h : compilePatterns idx t = .ok ps) :
    ps.map Pattern.unnumbered = t.filterMap fun row => (compilePattern row.1 row.2 0).toOption := by
  induction t generalizing idx ps with
  | nil =>
    cases h
    rfl
  | cons row rest ih =>
    obtain ⟨p, ps, hp, hps, rfl⟩ := compilePatterns_cons_iff.mp h
    rw [List.map_cons, ih hps, List.filterMap_cons, compilePattern_unnumbered hp]
    rfl

/-- R101, R254: a table gives a pattern ROM exactly when each row's string is a valid pattern. -/
theorem exists_compilePatterns_iff {idx : Nat} {t : Table} :
    (∃ ps, compilePatterns idx t = .ok ps) ↔ ∀ row ∈ t, ∃ q, validate row.1 = .ok q := by
  induction t generalizing idx with
  | nil => exact iff_of_true ⟨[], rfl⟩ (by simp)
  | cons row rest ih =>
    rw [List.forall_mem_cons, ← ih (idx := idx + 1)]
    constructor
    · rintro ⟨ps, h⟩
      obtain ⟨p, ps, hp, hps, rfl⟩ := compilePatterns_cons_iff.mp h
      obtain ⟨q, hq, -⟩ := compilePattern_ok hp
      exact ⟨⟨q, hq⟩, ps, hps⟩
    · rintro ⟨⟨q, hq⟩, ps, hps⟩
      exact ⟨_, compilePatterns_cons_iff.mpr ⟨_, ps, by rw [compilePattern, hq], hps, rfl⟩⟩

/-- R111: a permutation of a table compiles to the same rows, row numbers apart. -/
theorem compilePatterns_perm {t t' : Table} (hperm : t.Perm t') {ps : List Pattern}
    (h : compilePatterns 0 t = .ok ps) :
    ∃ ps', compilePatterns 0 t' = .ok ps' ∧
      (ps.map Pattern.unnumbered).Perm (ps'.map Pattern.unnumbered) := by
  have hvalid := exists_compilePatterns_iff.mp ⟨ps, h⟩
  obtain ⟨ps', h'⟩ := exists_compilePatterns_iff.mpr fun row hrow => hvalid row (hperm.mem_iff.mpr hrow)
  refine ⟨ps', h', ?_⟩
  rw [map_unnumbered_eq_filterMap h, map_unnumbered_eq_filterMap h']
  exact hperm.filterMap _

/-- R110: a pattern whose runs are supported can be registered anywhere. -/
theorem exists_registerPattern {p : Pattern} (h : checkRuns (deriveBuilder p.variableMask) = .ok ())
    (d : Dispatcher) : ∃ d', registerPattern d p = .ok d' := by
  induction d with
  | nil => exact ⟨_, by rw [registerPattern, h]⟩
  | cons e d ih =>
    obtain ⟨d', hd'⟩ := ih
    rw [registerPattern, hd']
    split
    · exact ⟨_, rfl⟩
    · exact ⟨_, rfl⟩

theorem exists_compileFrom {idx : Nat} {t : Table} {ps : List Pattern}
    (hps : compilePatterns idx t = .ok ps)
    (h : ∀ p ∈ ps, checkRuns (deriveBuilder p.variableMask) = .ok ()) (d : Dispatcher) :
    ∃ d', compileFrom idx d t = .ok d' := by
  induction t generalizing idx ps d with
  | nil => exact ⟨d, rfl⟩
  | cons row rest ih =>
    obtain ⟨p, ps, hp, hrest, rfl⟩ := compilePatterns_cons_iff.mp hps
    obtain ⟨hruns, h⟩ := List.forall_mem_cons.mp h
    obtain ⟨d₁, hr⟩ := exists_registerPattern hruns d
    rw [compileFrom_cons_ok hp hr]
    exact ih hrest h d₁

theorem mem_variableMasks_iff {t : Table} {d : Dispatcher} {ps : List Pattern}
    (hd : compileDispatcher t = .ok d) (hps : compilePatterns 0 t = .ok ps) {m : Quad MaskChar} :
    m ∈ d.map Entry.variableMask ↔ ∃ p ∈ ps.map Pattern.unnumbered, p.variableMask = m := by
  rw [variableMasks_eq_firstMet hd hps, mem_firstMet]
  simp only [List.mem_map, exists_exists_and_eq_and, Pattern.unnumbered_variableMask]

/-- R107, R110: in a table that compiles every row's runs are supported, also where its shape stood
already. -/
theorem checkRuns_of_row {t : Table} {d : Dispatcher} {ps : List Pattern}
    (hd : compileDispatcher t = .ok d) (hps : compilePatterns 0 t = .ok ps) :
    ∀ p ∈ ps.map Pattern.unnumbered, checkRuns (deriveBuilder p.variableMask) = .ok () := by
  intro p hp
  obtain ⟨e, he, hmask⟩ := List.mem_map.mp ((mem_variableMasks_iff hd hps).mpr ⟨p, hp, rfl⟩)
  exact hmask ▸ (registeredEntry_of_compileDispatcher hd e he).supported

/-- R111: no two of these rows share shape and tuple. -/
def CollisionFree (ps : List Pattern) : Prop := ps.Pairwise fun p q => p.collides q = false

theorem collides_comm (p q : Pattern) : p.collides q = q.collides p := by
  rw [Pattern.collides, Pattern.collides, BEq.comm, BEq.comm (a := p.fixedTuple)]

theorem collisionFree_map_unnumbered {ps : List Pattern} :
    CollisionFree (ps.map Pattern.unnumbered) ↔ CollisionFree ps := List.pairwise_map

theorem CollisionFree.perm {ps ps' : List Pattern} (h : CollisionFree ps) (hperm : ps.Perm ps') :
    CollisionFree ps' :=
  hperm.pairwise h fun {p q} hpq => (collides_comm q p).trans hpq

/-- R110: without collisions every row is held under its shape and key. -/
theorem CollisionFree.heldUnder_eq_some_iff {t : Table} {d : Dispatcher} {ps : List Pattern}
    (hfree : CollisionFree ps) (hd : compileDispatcher t = .ok d) (hps : compilePatterns 0 t = .ok ps)
    {m : Quad MaskChar} {k : Key} {p : Pattern} :
    heldUnder d m k = some p ↔ p ∈ ps ∧ p.variableMask = m ∧ p.fixedTuple = k := by
  refine ⟨row_of_heldUnder hd hps, ?_⟩
  rintro ⟨hp, rfl, rfl⟩
  obtain ⟨q, hq⟩ := exists_heldUnder_of_row hd hps hp
  obtain ⟨hqmem, hmask, hkey⟩ := row_of_heldUnder hd hps hq
  have hcollide : p.collides q = true := by simp [Pattern.collides, hmask, hkey]
  have hsymm : Std.Symm fun p q : Pattern => p.collides q = false :=
    ⟨fun p q hpq => (collides_comm q p).trans hpq⟩
  have hpq : p = q := by
    by_contra hne
    have hfalse := hfree.forall hp hqmem hne
    cases hcollide.symm.trans hfalse
  exact hq.trans (congrArg some hpq.symm)

theorem CollisionFree.map_content_heldUnder_iff {t : Table} {d : Dispatcher} {ps : List Pattern}
    (hfree : CollisionFree ps) (hd : compileDispatcher t = .ok d) (hps : compilePatterns 0 t = .ok ps)
    {m : Quad MaskChar} {k : Key} {c : String × String × Key} :
    (heldUnder d m k).map content = some c ↔
      ∃ p ∈ ps.map Pattern.unnumbered, p.variableMask = m ∧ p.fixedTuple = k ∧ content p = c := by
  simp only [Option.map_eq_some_iff, hfree.heldUnder_eq_some_iff hd hps, and_assoc, List.mem_map,
    exists_exists_and_eq_and, Pattern.unnumbered_variableMask, Pattern.unnumbered_fixedTuple,
    content_unnumbered]

/-! ### Words under a permuted table -/

/-- R111: the two dispatchers hold the same rows under every shape and key, row numbers apart. -/
def SameRows (d d' : Dispatcher) : Prop :=
  ∀ m k, (heldUnder d m k).map content = (heldUnder d' m k).map content

theorem exists_hit_of_sameRows {t t' : Table} {d d' : Dispatcher} (hd : compileDispatcher t = .ok d)
    (hd' : compileDispatcher t' = .ok d') (hsame : SameRows d d') {e : Entry} (he : e ∈ d) {raw : Raw}
    {p : Pattern} (hp : lookup e.map (project e (asNibbles raw)) = some p) :
    ∃ e' ∈ d', e'.variableMask = e.variableMask ∧ e'.builder = e.builder ∧
      ∃ p', lookup e'.map (project e' (asNibbles raw)) = some p' ∧ content p' = content p := by
  rw [← heldUnder_of_mem (nodup_variableMasks hd) he] at hp
  have hheld := hsame e.variableMask (project e (asNibbles raw))
  rw [hp] at hheld
  obtain ⟨p', hp', hcontent⟩ := Option.map_eq_some_iff.mp hheld.symm
  obtain ⟨e', he', hmask, hlookup⟩ := exists_entry_of_heldUnder hp'
  have hbuilder : e'.builder = e.builder := by
    rw [(compiledEntry_of_compileDispatcher hd' e' he').builder_eq, hmask,
      (compiledEntry_of_compileDispatcher hd e he).builder_eq]
  have hproject : project e' = project e := by
    funext ns
    rw [project, project, hbuilder]
  exact ⟨e', he', hmask, hbuilder, p', hproject ▸ hlookup, hcontent⟩

theorem mnemonic_symbols_eq_of_sameRows {t t' : Table} {d d' : Dispatcher}
    (hd : compileDispatcher t = .ok d) (hd' : compileDispatcher t' = .ok d') (hsame : SameRows d d')
    {raw : Raw} (hone : ∀ e ∈ d, ∀ e' ∈ d, hits e raw → hits e' raw → e = e') :
    (decode d raw).mnemonic = (decode d' raw).mnemonic ∧
      (decode d raw).symbols = (decode d' raw).symbols := by
  have hsame' : SameRows d' d := fun m k => (hsame m k).symm
  obtain ⟨_, e, p, he, hp, -, hdec⟩ | ⟨hmiss, -, hdec⟩ := decode_cases d raw <;>
    obtain ⟨_, e', p', he', hp', -, hdec'⟩ | ⟨hmiss', -, hdec'⟩ := decode_cases d' raw
  · obtain ⟨e₁, he₁, -, hbuilder, p₁, hp₁, hcontent⟩ :=
      exists_hit_of_sameRows hd' hd hsame' (List.mem_of_getElem? he') hp'
    obtain rfl : e = e₁ := hone e (List.mem_of_getElem? he) e₁ he₁ (hitsIn_of_lookup hp)
      (hitsIn_of_lookup hp₁)
    obtain rfl : p = p₁ := Option.some.inj (hp.symm.trans hp₁)
    rw [hdec, hdec', hbuilder]
    exact ⟨congrArg (fun c => c.2.1) hcontent, rfl⟩
  · obtain ⟨e₁, he₁, -, -, p₁, hp₁, -⟩ := exists_hit_of_sameRows hd hd' hsame (List.mem_of_getElem? he) hp
    cases (hmiss' e₁ he₁).symm.trans hp₁
  · obtain ⟨e₁, he₁, -, -, p₁, hp₁, -⟩ :=
      exists_hit_of_sameRows hd' hd hsame' (List.mem_of_getElem? he') hp'
    cases (hmiss e₁ he₁).symm.trans hp₁
  · rw [hdec, hdec']
    exact ⟨rfl, rfl⟩

/-- Settles O17: the permuted table has the same rows, row numbers apart, so its shapes are the same and,
without collisions, hold the same. -/
theorem compilationIsOrderIndependent : Obligations.CompilationIsOrderIndependent := by
  intro t t' d hperm hd hcollide
  obtain ⟨ps, hps⟩ := exists_compilePatterns hd
  have hfree : CollisionFree ps := hcollide ps hps
  obtain ⟨ps', hps', hrows⟩ := compilePatterns_perm hperm hps
  have hfree' : CollisionFree ps' := collisionFree_map_unnumbered.mp
    ((collisionFree_map_unnumbered.mpr hfree).perm hrows)
  obtain ⟨d', hd'⟩ := exists_compileFrom hps' (fun p hp =>
    checkRuns_of_row hd hps p.unnumbered (hrows.mem_iff.mpr (List.mem_map_of_mem hp))) []
  have hsame : SameRows d d' := fun m k => Option.ext fun c => by
    rw [hfree.map_content_heldUnder_iff hd hps, hfree'.map_content_heldUnder_iff hd' hps']
    simp only [hrows.mem_iff]
  refine ⟨d', hd', ?_, fun e he e' he' hmask => ?_, hsame,
    fun raw hone => mnemonic_symbols_eq_of_sameRows hd hd' hsame hone⟩
  · refine (List.perm_ext_iff_of_nodup (nodup_variableMasks hd) (nodup_variableMasks hd')).mpr fun m => ?_
    simp only [mem_variableMasks_iff hd hps, mem_variableMasks_iff hd' hps', hrows.mem_iff]
  · rw [(compiledEntry_of_compileDispatcher hd e he).builder_eq, hmask,
      (compiledEntry_of_compileDispatcher hd' e' he').builder_eq]

end Sys2Proof.Machine
end

section
/-! PROOFS. What an instruction presents (41_decode_resolution.md R120), and the empty table
(40_table_compilation.md R112, 46_unknown.md R215). -/

namespace Sys2Proof.Machine

open Sys2Proof.Claims

theorem ofWord_joinNibbles (a b c d : Nibble) : Raw.ofWord (joinNibbles a b c d) = Raw.ofNibbles a b c d := by
  have h := word_eq_joinNibbles (Raw.ofNibbles a b c d)
  rw [asNibbles_ofNibbles] at h
  rw [← h, ofWord_word]

theorem asNibbles_ofWord (w : Word) :
    asNibbles (Raw.ofWord w) = ⟨nibbleOf w 0, nibbleOf w 1, nibbleOf w 2, nibbleOf w 3⟩ := by
  rw [← asNibbles_ofNibbles, ← ofWord_joinNibbles]
  exact congrArg (fun w => asNibbles (Raw.ofWord w)) (exists_joinNibbles w).symm

/-- R84, R120: every instruction presents the word that it encodes to, format by format (R72). -/
theorem exec_eq_present (i : Instr) (s : State) :
    exec i s = .next (s.present (Raw.ofWord (encodeWord i))) := by
  cases i
  case clear | ret | unknown => rfl
  case goto | call | seti | jumpr =>
    rw [encodeWord, append_constant12, ofWord_joinNibbles]
    rfl
  case sieq | sine | setr | addi | rand =>
    rw [encodeWord, append_byte, ofWord_joinNibbles]
    rfl
  case sreq | copy | or | and | xor | add | sub | shiftr | subn | shiftl | srne | draw =>
    rw [encodeWord, append_nibbles, ofWord_joinNibbles]
    rfl
  case skpr | sknp | rdel | key | tdel | tsnd | iadd | char | dec | dump | load =>
    rw [encodeWord, append_byte, ofWord_joinNibbles]
    rfl

/-- R120: the instruction that a word reads as presents that word. -/
theorem exec_decodeWord (w : Word) (s : State) :
    exec (decodeWord w) s = .next (s.present (Raw.ofWord w)) := by
  obtain ⟨-, hw⟩ := encodeOfDecode w
  rw [exec_eq_present, hw]

/-- Settles O19: no entry is left to hit, so the presented word's decode is the fallback. -/
theorem emptyTableKnowsNoWord : Obligations.EmptyTableKnowsNoWord := by
  refine ⟨rfl, fun s w hs => ⟨_, exec_decodeWord w s, ?_⟩⟩
  rw [State.present_result, hs, decode_nil, asNibbles_ofWord]
  rfl

end Sys2Proof.Machine
end

section
/-! PROOFS. How a word is resolved (41_decode_resolution.md R120 to R122, R130, R135): the digits of a value,
the projection position by position, the lookup of a compiled entry and the first entry that hits. -/

namespace Sys2Proof.Machine

open Sys2Proof.Claims

/-! ### Digits and their value -/

theorem nibblesToInt_cons (n : Nibble) (ns : List Nibble) :
    nibblesToInt (n :: ns) = n.toNat * 16 ^ ns.length + nibblesToInt ns := by
  have hone : nibblesToInt [n] = n.toNat := by simp [nibblesToInt]
  rw [← List.singleton_append, nibblesToInt_append, hone]

theorem length_digits (len v : Nat) : (digits len v).length = len := by
  induction len generalizing v with
  | zero => rfl
  | succ len ih => rw [digits, List.length_append, ih, List.length_singleton]

/-- R135: digits beyond the length are cut off, so the digits of a smaller number have its value. -/
theorem nibblesToInt_digits {len v : Nat} (h : v < 16 ^ len) : nibblesToInt (digits len v) = v := by
  induction len generalizing v with
  | zero => exact (Nat.lt_one_iff.mp h).symm
  | succ len ih =>
    have hdiv : v / 16 < 16 ^ len := Nat.div_lt_of_lt_mul (by rwa [← pow_succ'])
    rw [digits, nibblesToInt_concat, ih hdiv, BitVec.toNat_ofNat]
    omega

/-- Settles O6. -/
theorem positionalValueIsExact : Obligations.PositionalValueIsExact :=
  ⟨nibblesToInt_cons, nibblesToInt_nil, nibblesToInt_lt,
    fun len v h => ⟨length_digits len v, nibblesToInt_digits h⟩⟩

/-- Settles O24. -/
theorem symbolsPartitionTheNibbles : Obligations.SymbolsPartitionTheNibbles := fun b ns h =>
  ⟨map_kind_build b ns, map_nibbleCount_build h, flatMap_nibbles_build h⟩

/-! ### The projection -/

/-- R121: the projection position by position. -/
theorem getElem?_project (e : Entry) (ns : Quad Nibble) (i : Nat) :
    (project e ns).toList[i]? = ns.toList[i]?.map (projectAt e.builder i) := by
  match i with
  | 0 | 1 | 2 | 3 => rfl
  | _ + 4 => rfl

/-- R121: a position is projected to its nibble or to nothing. -/
theorem getElem?_project_eq_ite (e : Entry) (ns : Quad Nibble) {i : Nat} (hi : i < 4) :
    (project e ns).toList[i]? =
      if kindAt e.builder i = some .opFrag then ns.toList[i]?.map some else some none := by
  have hnibble : ns.toList[i]? = some ns.toList[i] := List.getElem?_eq_getElem hi
  rw [getElem?_project, hnibble, Option.map_some, projectAt, apply_ite some]
  rfl

/-- R121: the run that covers a position. -/
theorem kindAt_append_cons {pre post : Builder} {r : Run} {i : Nat} (hlow : totalLen pre ≤ i)
    (hhigh : i < totalLen pre + r.len) : kindAt (pre ++ r :: post) i = some r.kind := by
  have hkinds : runKinds (pre ++ r :: post) = runKinds pre ++ runKinds (r :: post) :=
    List.flatMap_append
  rw [kindAt_eq_getElem?, hkinds, List.getElem?_append_right (by rwa [length_runKinds]), length_runKinds,
    runKinds_cons, List.getElem?_append_left (by rw [List.length_replicate]; omega),
    List.getElem?_replicate_of_lt (by omega)]

/-- R106, R121: a derived builder has an opcode fragment exactly under the placeholders of its mask. -/
theorem kindAt_deriveBuilder_eq_opFrag_iff (q : Quad PatChar) (i : Nat) :
    kindAt (deriveBuilder (q.map variableChar)) i = some .opFrag ↔
      (q.map variableChar).toList[i]? = some .placeholder := by
  have hchar : ∀ c, kindOf (variableChar c) = .opFrag ↔ variableChar c = .placeholder := by
    rintro (v | _ | _ | _) <;> simp [kindOf, variableChar]
  simp [kindAt_eq_getElem?, runKinds_deriveBuilder, toList_map, hchar]

theorem keepFixed_eq_none_iff (c : PatChar) (n : Nibble) :
    keepFixed c n = none ↔ fixedNibble (fixedChar c) = none := by
  cases c <;> simp [keepFixed, fixedNibble, fixedChar]

/-- R108, R121: in a compiled entry the projection is unconstrained exactly where the keys are. -/
theorem CompiledEntry.getElem?_project_eq_none_iff {e : Entry} (h : CompiledEntry e)
    {kp : Key × Pattern} (hkp : kp ∈ e.map) (ns : Quad Nibble) (i : Nat) :
    (project e ns).toList[i]? = some none ↔ kp.1.toList[i]? = some none := by
  obtain ⟨⟨hp, mn, idx, hcomp⟩, hmask, hkey⟩ := h.rows kp hkp
  obtain ⟨q, -, hpat⟩ := compilePattern_ok hcomp
  have hbuilder : e.builder = deriveBuilder (q.map variableChar) := by rw [h.builder_eq, ← hmask, hpat]
  rw [hkey, hpat, project_deriveBuilder hbuilder]
  match i with
  | 0 | 1 | 2 | 3 => simp [Quad.toList, Quad.map, keepFixed_eq_none_iff]
  | _ + 4 => simp [Quad.toList]

/-- Settles O20: a position keeps its nibble exactly under an opcode fragment, which a derived builder has
under the placeholders, and a compiled row has its digits there. -/
theorem projectionKeepsFixedNibbles : Obligations.ProjectionKeepsFixedNibbles := by
  refine ⟨fun e pre post r ns i he hlow hhigh hi => ?_, fun q e ns i hi he => ?_,
    fun t d hd e he kp hkp => (compiledEntry_of_compileDispatcher hd e he).getElem?_project_eq_none_iff hkp⟩
  · simp only [getElem?_project_eq_ite e ns hi, he, kindAt_append_cons hlow hhigh, Option.some.injEq]
  · simp only [getElem?_project_eq_ite e ns hi, he, kindAt_deriveBuilder_eq_opFrag_iff]

/-! ### The lookup of a compiled entry -/

/-- R108: a compiled entry holds a pattern only under the pattern's own tuple. -/
theorem CompiledEntry.exists_key_iff {e : Entry} (h : CompiledEntry e) {p : Pattern} :
    (∃ k, (k, p) ∈ e.map) ↔ (p.fixedTuple, p) ∈ e.map := by
  refine ⟨fun ⟨k, hk⟩ => ?_, fun hp => ⟨_, hp⟩⟩
  obtain ⟨-, -, hkey⟩ := h.rows _ hk
  exact hkey ▸ hk

/-- Settles O21: the pattern is held under its tuple, and its match line is the masked compare. -/
theorem lookupIsTheMaskedCompare : Obligations.LookupIsTheMaskedCompare := by
  intro t d hd e he w p
  have hent := compiledEntry_of_compileDispatcher hd e he
  have hnodup := (registeredEntry_of_compileDispatcher hd e he).nodup_keys
  rw [hent.lookup_eq_some_iff_matchLine hnodup, hent.exists_key_iff, word_ofWord, matchLine, beq_iff_eq]

/-! ### The first entry that hits -/

/-- R120: entries that miss are passed over. -/
theorem decode_append_of_miss {pre : Dispatcher} {raw : Raw}
    (h : ∀ e ∈ pre, lookup e.map (project e (asNibbles raw)) = none) (d : Dispatcher) :
    decode (pre ++ d) raw = decode d raw := by
  induction pre with
  | nil => rfl
  | cons e pre ih =>
    obtain ⟨he, hpre⟩ := List.forall_mem_cons.mp h
    rw [List.cons_append, decode_cons_miss he, ih hpre]

/-- R120, R123: the first entry that hits gives the result. -/
theorem decode_of_first_hit {pre post : Dispatcher} {e : Entry} {raw : Raw} {p : Pattern}
    (hpre : ∀ e' ∈ pre, lookup e'.map (project e' (asNibbles raw)) = none)
    (hp : lookup e.map (project e (asNibbles raw)) = some p) :
    decode (pre ++ e :: post) raw = .known raw p (build e.builder (asNibbles raw).toList) :=
  (decode_append_of_miss hpre _).trans (decode_cons_hit hp)

/-- R124: a word that no entry hits is unknown. -/
theorem decode_of_miss {d : Dispatcher} {raw : Raw}
    (h : ∀ e ∈ d, lookup e.map (project e (asNibbles raw)) = none) :
    decode d raw = .unknown raw [opFrag (asNibbles raw).toList] := by
  have happend := decode_append_of_miss h []
  rwa [List.append_nil] at happend

/-- R42, R226: the diagnostic is a function of the result. -/
theorem portsOf_diagO (d : Dispatcher) (raw : Raw) : (portsOf d raw).diagO = diagO (decode d raw) := rfl

/-- Settles O22: the entries before the first hit are passed over, and a result shows whether it is known
in its diagnostic. -/
theorem firstHitInOrderWins : Obligations.FirstHitInOrderWins := by
  refine fun d raw => ⟨fun p ys => ⟨fun hknown => ?_, ?_⟩, fun hmiss => ?_⟩
  · obtain ⟨pre, e, post, rfl, hpre, hp⟩ := entry_of_decode_known hknown
    obtain ⟨-, -, hys⟩ := Decoded.known.inj (hknown.symm.trans (decode_of_first_hit hpre hp))
    exact ⟨pre, e, post, rfl, hpre, hp, hys, by rw [portsOf_diagO, hknown]; rfl⟩
  · rintro ⟨pre, e, post, rfl, hpre, hp, rfl, -⟩
    exact decode_of_first_hit hpre hp
  · rw [portsOf_diagO, decode_of_miss hmiss]
    exact ⟨rfl, rfl⟩

end Sys2Proof.Machine
end

section
/-! PROOFS. The text line of a result (30_encoding.md R91 to R95, 41_decode_resolution.md R140). -/

namespace Sys2Proof.Machine

open Sys2Proof.Claims

/-- R140: the operands' texts, each after one space. -/
theorem renderOperands_eq_join (ys : List Symbol) :
    renderOperands ys = String.join ((ys.filter Symbol.isOperand).map fun y => " " ++ renderSymbol y) := by
  induction ys with
  | nil => rfl
  | cons y ys ih =>
    rw [renderOperands, List.filter_cons]
    split
    next => rw [List.map_cons, String.join_cons, ih]
    next => exact ih

/-- R93: the text of digits, with each digit the listed one. -/
theorem nibblesToHex_eq_hexText (ns : List Nibble) : nibblesToHex ns = hexText ns := by
  rw [nibblesToHex, funext hexDigit_eq_hexChar]
  rfl

/-- R92: the text of a register. -/
theorem renderSymbol_register (r : Nibble) : renderSymbol (register r) = regText r := by
  rw [regText, ← hexDigit_eq_hexChar]
  rfl

/-- R140, R87: an unknown line is the mnemonic and the word. -/
theorem render_unknown (raw : Raw) (ys : List Symbol) :
    render (.unknown raw ys) = "UNKNOWN " ++ hexText (asNibbles raw).toList := by
  rw [render, nibblesToHex_eq_hexText]
  rfl

/-- Settles O34; the three worked examples by evaluating the renderer. -/
theorem knownLinesListTheOperands : Obligations.KnownLinesListTheOperands := fun raw p ys =>
  ⟨by rw [render, renderOperands_eq_join, String.join_cons], renderSymbol_register,
    nibblesToHex_eq_hexText, nibblesToHex_eq_hexText, render_unknown raw, by decide, by decide, by decide⟩

end Sys2Proof.Machine
end

section
/-! PROOFS. Words and streams through the machine (41_decode_resolution.md R120, R125, R145): what an
instruction delivers, the loop of DecodeStream, and runs over a stream. -/

namespace Sys2Proof.Machine

open Sys2Proof.Claims

/-! ### One word -/

/-- R40, R56: presenting a word delivers its decode and changes nothing else. -/
theorem present_delivers (s : State) (raw : Raw) :
    Delivers s (s.present raw) raw (decode s.dispatchRom raw) (portsOf s.dispatchRom raw) :=
  ⟨rfl, rfl, rfl, rfl, rfl, rfl, rfl, rfl⟩

/-- Settles O47: the instruction presents the word it was read from. -/
theorem executionIsTheBlockDecode : Obligations.ExecutionIsTheBlockDecode := fun s w =>
  ⟨_, exec_decodeWord w s, present_delivers s (Raw.ofWord w)⟩

/-- Settles O50: the two bytes are read as one word, and the reader goes past them. -/
theorem stepRunsTheDecodedInstruction : Obligations.StepRunsTheDecodedInstruction := by
  intro s b0 b1 rest i hs hi
  obtain ⟨rfl, -⟩ := Prod.mk.inj (Except.ok.inj ((decodeBytes_bytes_append ⟨b0, b1⟩ []).symm.trans hi))
  exact step_cons hs

/-- R120, R145: a step with a whole chunk left presents that chunk. -/
theorem step_chunk {s : State} {b0 b1 : Byte} {rest : List Byte} (h : s.stream = b0 :: b1 :: rest) :
    step s = .next ((s.advance rest).present ⟨b0, b1⟩) := by
  rw [step_cons h, exec_decodeWord, ofWord_word]

/-! ### The loop of DecodeStream -/

/-- R145: one round of the loop, by what the rounds after it give. -/
theorem decodeStreamFrom_cons_cons (d : Dispatcher) (k : Nat) (b0 b1 : Byte) (rest : List Byte) :
    decodeStreamFrom d k (b0 :: b1 :: rest) =
      (decodeStreamFrom d (k + 2) rest).map (decode d ⟨b0, b1⟩ :: ·) := by
  rw [decodeStreamFrom, rawFromBytes]
  cases decodeStreamFrom d (k + 2) rest <;> rfl

/-- R145, R223: what the loop answers: the results of the whole chunks, or `E3` at the last byte. -/
theorem decodeStreamFrom_eq_ite (d : Dispatcher) (k : Nat) (bytes : List Byte) :
    decodeStreamFrom d k bytes =
      if bytes.length % 2 = 0 then .ok (chunkResults d bytes)
      else .error (.incompleteTrailingChunk (k + bytes.length - 1)) := by
  induction bytes using List.twoStepInduction generalizing k with
  | nil => rfl
  | singleton b => rfl
  | cons_cons b0 b1 rest ih _ =>
    have hlen : (b0 :: b1 :: rest).length = rest.length + 2 := rfl
    rw [decodeStreamFrom_cons_cons, ih, hlen, Nat.add_mod_right, Nat.add_right_comm k 2, Nat.add_assoc k]
    split <;> rfl

/-- R145: the results stand in file order, one for each two bytes. -/
theorem length_chunkResults (d : Dispatcher) (bytes : List Byte) :
    (chunkResults d bytes).length = bytes.length / 2 := by
  induction bytes using List.twoStepInduction with
  | nil => rfl
  | singleton b => simp [chunkResults]
  | cons_cons b0 b1 rest ih _ =>
    rw [chunkResults, List.length_cons, ih]
    exact (Nat.add_div_right rest.length two_pos).symm

theorem getElem?_chunkResults (d : Dispatcher) {bytes : List Byte} {k : Nat} {b0 b1 : Byte}
    (h0 : bytes[2 * k]? = some b0) (h1 : bytes[2 * k + 1]? = some b1) :
    (chunkResults d bytes)[k]? = some (decode d ⟨b0, b1⟩) := by
  induction bytes using List.twoStepInduction generalizing k with
  | nil => cases h0
  | singleton b => cases h1
  | cons_cons c0 c1 rest ih _ =>
    cases k with
    | zero =>
      cases h0
      cases h1
      rfl
    | succ k => exact ih h0 h1

/-- Settles O55: the loop gives the results of the chunks when no byte is left over. -/
theorem streamResultsArePointwise : Obligations.StreamResultsArePointwise := by
  refine fun d bytes => ⟨fun heven => ⟨chunkResults d bytes, ?_, ?_, fun k b0 b1 => getElem?_chunkResults d⟩,
    fun hodd => ?_⟩
  · rw [decodeStream, decodeStreamFrom_eq_ite, if_pos heven]
  · rw [length_chunkResults]
    omega
  · rw [decodeStream, decodeStreamFrom_eq_ite, if_neg (by omega), Nat.zero_add]

/-! ### Runs -/

theorem run_succ_of_step_next {M : Host.Core} {s t : M.State} (h : M.step s = .next t) (k : Nat) :
    M.run (k + 1) s = M.run k t := by
  rw [Host.Core.run, h]

theorem run_succ_of_step_fault {M : Host.Core} {s : M.State} {f : M.Fault} (h : M.step s = .fault f)
    (k : Nat) : M.run (k + 1) s = .fault f := by
  rw [Host.Core.run, h]

/-- R145: while whole chunks are left, each step of a run presents the next of them. -/
theorem run_chunk {k : Nat} {s : State} (hk : k < s.stream.length / 2) :
    ∃ t, Host.Core.run core (k + 1) s = .next t ∧
      t.result = (chunkResults s.dispatchRom s.stream)[k]? ∧ t.offset = s.offset + 2 * (k + 1) := by
  generalize hs : s.stream = bytes at hk ⊢
  induction bytes using List.twoStepInduction generalizing k s with
  | nil => exact absurd hk (by simp)
  | singleton b => exact absurd hk (by simp)
  | cons_cons b0 b1 rest ih _ =>
    cases k with
    | zero => exact ⟨_, run_succ_of_step_next (M := core) (step_chunk hs) 0, rfl, rfl⟩
    | succ k =>
      have hlen : (b0 :: b1 :: rest).length = rest.length + 2 := rfl
      obtain ⟨t, hrun, hresult, hoffset⟩ :=
        ih (k := k) (s := (s.advance rest).present ⟨b0, b1⟩) rfl (by omega)
      refine ⟨t, (run_succ_of_step_next (M := core) (step_chunk hs) _).trans hrun, hresult,
        hoffset.trans ?_⟩
      rw [State.present_offset, State.advance_offset]
      omega

/-- R145, R223: a run over a stream of odd length ends in `E3` at the last byte. -/
theorem run_odd {s : State} (hodd : s.stream.length % 2 = 1) :
    Host.Core.run core (s.stream.length / 2 + 1) s =
      .fault (.incompleteTrailingChunk (s.offset + s.stream.length - 1)) := by
  generalize hs : s.stream = bytes at hodd ⊢
  induction bytes using List.twoStepInduction generalizing s with
  | nil => cases hodd
  | singleton b => exact run_succ_of_step_fault (M := core) (step_singleton hs) _
  | cons_cons b0 b1 rest ih _ =>
    have hlen : (b0 :: b1 :: rest).length = rest.length + 2 := rfl
    rw [hlen, Nat.add_mod_right] at hodd
    rw [hlen, Nat.add_div_right _ two_pos, ← Nat.add_assoc s.offset, Nat.add_right_comm s.offset]
    exact (run_succ_of_step_next (M := core) (step_chunk hs) _).trans
      (ih (s := (s.advance rest).present ⟨b0, b1⟩) rfl hodd)

/-- Settles O56: a run presents the chunks that the loop of DecodeStream decodes. -/
theorem runningTheMachineDecodesTheStream : Obligations.RunningTheMachineDecodesTheStream := by
  refine fun s => ⟨fun k => run_chunk, fun out hout => ?_, run_odd⟩
  rw [decodeStream, decodeStreamFrom_eq_ite] at hout
  split at hout
  next => exact (Except.ok.inj hout).symm
  next => cases hout

/-- What every step answers with and keeps holds after any number of steps. -/
theorem run_induction {motive : State → Prop} (hstep : ∀ s, motive s → ∃ t, step s = .next t ∧ motive t)
    (k : Nat) {s : State} (hs : motive s) :
    ∃ t, Host.Core.run core k s = .next t ∧ motive t := by
  induction k generalizing s with
  | zero => exact ⟨s, rfl, hs⟩
  | succ k ih =>
    obtain ⟨s', hs', hmotive⟩ := hstep s hs
    obtain ⟨t, hrun, ht⟩ := ih hmotive
    exact ⟨t, (run_succ_of_step_next (M := core) hs' k).trans hrun, ht⟩

/-- Settles O57: every step keeps the stream whole (O58). -/
theorem wholeStreamsRunSafely : Obligations.WholeStreamsRunSafely := by
  intro s hwhole k
  obtain ⟨t, hrun, -⟩ := run_induction everyStepKeepsTheStreamWhole k hwhole
  exact ⟨t, hrun⟩

end Sys2Proof.Machine
end

section
/-! PROOFS. The patterns without operand and with a 12-bit constant (42_shape_none_and_nnn.md): what an
instruction that hits a shipped row delivers, the value and text of its constant, and the six rows of shapes
S0 and S1. -/

namespace Sys2Proof.Machine

open Sys2Proof.Claims

/-! ### A hit of the shipped dispatch ROM -/

/-- R24 item 2, R123: under the shipped dispatch ROM the shape that hits is the one that the ports name. -/
theorem shapeHit_shipped_of_lookup {raw : Raw} {k : Nat} {e : Entry} {p : Pattern}
    (he : shippedDispatchRom[k]? = some e) (hp : lookup e.map (project e (asNibbles raw)) = some p) :
    shapeHit shippedDispatchRom raw = some k := by
  have hmem := List.mem_of_getElem? he
  obtain ⟨j, e', p', he', hp', hshape, -⟩ | ⟨hmiss, -, -⟩ := decode_cases shippedDispatchRom raw
  · obtain rfl := shippedEntry_unique hmem (List.mem_of_getElem? he') (hitsIn_of_lookup hp)
      (hitsIn_of_lookup hp')
    have hnodup : shippedDispatchRom.Nodup := by decide
    have hj : j < shippedDispatchRom.length := (List.getElem?_eq_some_iff.mp he').1
    rw [hshape, (List.getElem?_inj hj hnodup).mp (he'.trans he.symm)]
  · exact absurd ((hmiss e hmem).symm.trans hp) (by simp)

/-- R144: an instruction whose nibbles hit a shipped shape delivers the row, the shape's symbols and their
slots, and the row's line. -/
theorem exec_delivers_hit {s : State} (hs : s.RomsShipped) {i : Instr} {n0 n1 n2 n3 : Nibble}
    (hword : encodeWord i = joinNibbles n0 n1 n2 n3) {k : Nat} {e : Entry} {p : Pattern}
    (he : shippedDispatchRom[k]? = some e) (hp : lookup e.map (project e ⟨n0, n1, n2, n3⟩) = some p)
    {ys : List Symbol} (hys : build e.builder [n0, n1, n2, n3] = ys) :
    ∃ t, exec i s = .next t ∧
      Delivers s t ⟨n0 ++ n1, n2 ++ n3⟩ (.known ⟨n0 ++ n1, n2 ++ n3⟩ p ys)
        (hitPorts (.ofNat 3 k) (.ofNat 6 p.index) (.ofNat 3 ys.length) (slotAt ys 0) (slotAt ys 1)
          (slotAt ys 2) (slotAt ys 3)) ∧
      t.result.map render = some (p.mnemonic ++ renderOperands ys) := by
  obtain ⟨-, hrom⟩ := hs
  have hnibbles : asNibbles ⟨n0 ++ n1, n2 ++ n3⟩ = ⟨n0, n1, n2, n3⟩ := asNibbles_ofNibbles n0 n1 n2 n3
  rw [← hnibbles] at hp
  have hdecode : decode s.dispatchRom ⟨n0 ++ n1, n2 ++ n3⟩ = .known ⟨n0 ++ n1, n2 ++ n3⟩ p ys := by
    rw [hrom, decode_shipped_of_lookup (List.mem_of_getElem? he) hp, hnibbles, ← hys]
    rfl
  have hdelivers := present_delivers s ⟨n0 ++ n1, n2 ++ n3⟩
  rw [portsOf, hdecode, hrom, shapeHit_shipped_of_lookup he hp] at hdelivers
  refine ⟨_, exec_eq_present i s, ?_⟩
  rw [hword, ofWord_joinNibbles]
  exact ⟨hdelivers, congrArg (fun d => some (render d)) hdecode⟩

/-! ### The word, the slots and the text of a 12-bit constant -/

theorem toNat_append_nibble {n : Nat} (v : BitVec n) (d : Nibble) :
    (v ++ d).toNat = v.toNat * 16 + d.toNat := by
  rw [BitVec.toNat_append, ← Nat.shiftLeft_add_eq_or_of_lt d.isLt, Nat.shiftLeft_eq]

/-- R43, R135: the value in the slot of a one-nibble symbol. -/
theorem ofNat_nibblesToInt_one (a : Nibble) : BitVec.ofNat 16 (nibblesToInt [a]) = a.setWidth 16 := by
  rw [← BitVec.ofNat_toNat, nibblesToInt]
  simp

/-- R43, R135: the value in the slot of a three-nibble symbol. -/
theorem ofNat_nibblesToInt_three (a b c : Nibble) :
    BitVec.ofNat 16 (nibblesToInt [a, b, c]) = (a ++ b ++ c : BitVec 12).setWidth 16 := by
  rw [← BitVec.ofNat_toNat, toNat_append_nibble (a ++ b), toNat_nibble_append, nibblesToInt]
  simp

/-- R72, format S1: the word of an opcode nibble and a constant of three nibbles. -/
theorem append_three_nibbles (op a b c : Nibble) :
    op ++ (a ++ b ++ c : BitVec 12) = joinNibbles op a b c :=
  BitVec.append_assoc'.trans (congrArg (· ++ c) BitVec.append_assoc')

/-- R140, R93: an opcode fragment has no text, and a constant has its digits. -/
theorem renderOperands_opFrag_constant (fs ns : List Nibble) :
    renderOperands [opFrag fs, constant ns] = " " ++ hexText ns := by
  rw [← nibblesToHex_eq_hexText]
  exact String.append_empty

/-! ### The rows -/

/-- R152 to R155, R159: what an instruction of format S1 delivers when shape S1 holds its opcode nibble. -/
theorem exec_delivers_constant12 {s : State} (hs : s.RomsShipped) {i : Instr} {op n1 n2 n3 : Nibble}
    {p : Pattern} (hword : encodeWord i = op ++ (n1 ++ n2 ++ n3 : BitVec 12))
    (hrow : lookup entryS1.map ⟨some op, none, none, none⟩ = some p) :
    ∃ t, exec i s = .next t ∧
      Delivers s t ⟨op ++ n1, n2 ++ n3⟩
        (.known ⟨op ++ n1, n2 ++ n3⟩ p [opFrag [op], constant [n1, n2, n3]])
        (hitPorts 1 (.ofNat 6 p.index) 2 ⟨0, 0, 1, op.setWidth 16⟩
          ⟨2, 1, 3, (n1 ++ n2 ++ n3 : BitVec 12).setWidth 16⟩ noSlot noSlot) ∧
      t.result.map render = some (p.mnemonic ++ " " ++ hexText [n1, n2, n3]) := by
  have h := exec_delivers_hit hs (hword.trans (append_three_nibbles op n1 n2 n3)) (k := 1) rfl hrow
    (ys := [opFrag [op], constant [n1, n2, n3]]) rfl
  rw [renderOperands_opFrag_constant, ← String.append_assoc] at h
  have hslot0 : slotAt [opFrag [op], constant [n1, n2, n3]] 0 = ⟨0, 0, 1, op.setWidth 16⟩ :=
    congrArg (Slot.mk 0 0 1) (ofNat_nibblesToInt_one op)
  have hslot1 : slotAt [opFrag [op], constant [n1, n2, n3]] 1 =
      ⟨2, 1, 3, (n1 ++ n2 ++ n3 : BitVec 12).setWidth 16⟩ :=
    congrArg (Slot.mk 2 1 3) (ofNat_nibblesToInt_three n1 n2 n3)
  rw [hslot0, hslot1] at h
  exact h

/-- Settles O41: shape S1 holds the four opcode nibbles, and any constant completes one of them to a word. -/
theorem patternsWithA12BitConstantDecode : Obligations.PatternsWithA12BitConstantDecode := by
  intro s hs n1 n2 n3 nnn c hc
  simp only [List.mem_cons, List.not_mem_nil, or_false] at hc
  obtain rfl | rfl | rfl | rfl := hc <;> exact exec_delivers_constant12 hs rfl rfl

/-- Settles O40: shape S0 holds both words, and its one symbol is no operand. -/
theorem patternsWithoutOperandDecode : Obligations.PatternsWithoutOperandDecode := fun _ hs =>
  ⟨exec_delivers_hit hs (n0 := 0x0) (n1 := 0x0) (n2 := 0xE) (n3 := 0x0) rfl (k := 0) rfl rfl rfl,
    exec_delivers_hit hs (n0 := 0x0) (n1 := 0x0) (n2 := 0xE) (n3 := 0xE) rfl (k := 0) rfl rfl rfl⟩

end Sys2Proof.Machine
end

section
/-! PROOFS. The patterns with one register and an 8-bit constant (43_shape_xnn.md): the value of a byte in its
slot, the text of a line operand by operand, and the five rows of shape S2. -/

namespace Sys2Proof.Machine

open Sys2Proof.Claims

/-! ### The slot of a byte -/

/-- R43, R135: the value in the slot of a two-nibble symbol. -/
theorem ofNat_nibblesToInt_two (a b : Nibble) :
    BitVec.ofNat 16 (nibblesToInt [a, b]) = (a ++ b : BitVec 8).setWidth 16 := by
  rw [← BitVec.ofNat_toNat, toNat_nibble_append, nibblesToInt]
  simp

/-! ### The text of a line, operand by operand -/

/-- R140: an opcode fragment is left out of the line. -/
theorem renderOperands_opFrag_cons (fs : List Nibble) (ys : List Symbol) :
    renderOperands (opFrag fs :: ys) = renderOperands ys := rfl

/-- R140, R92: a register gives one space and its text. -/
theorem renderOperands_register_cons (r : Nibble) (ys : List Symbol) :
    renderOperands (register r :: ys) = " " ++ regText r ++ renderOperands ys := by
  rw [← renderSymbol_register]
  rfl

/-- R140, R93: a constant at the end gives one space and its digits. -/
theorem renderOperands_constant (ns : List Nibble) : renderOperands [constant ns] = " " ++ hexText ns :=
  renderOperands_opFrag_constant [] ns

/-! ### The rows -/

/-- R160 to R164, R168: what an instruction of format S2 delivers when shape S2 holds its opcode nibble. -/
theorem exec_delivers_register_byte {s : State} (hs : s.RomsShipped) {i : Instr} {op x n2 n3 : Nibble}
    {p : Pattern} (hword : encodeWord i = op ++ x ++ (n2 ++ n3 : BitVec 8))
    (hrow : lookup entryS2.map ⟨some op, none, none, none⟩ = some p) :
    ∃ t, exec i s = .next t ∧
      Delivers s t ⟨op ++ x, n2 ++ n3⟩
        (.known ⟨op ++ x, n2 ++ n3⟩ p [opFrag [op], register x, constant [n2, n3]])
        (hitPorts 2 (.ofNat 6 p.index) 3 ⟨0, 0, 1, op.setWidth 16⟩ ⟨1, 1, 1, x.setWidth 16⟩
          ⟨2, 2, 2, (n2 ++ n3 : BitVec 8).setWidth 16⟩ noSlot) ∧
      t.result.map render = some (p.mnemonic ++ " " ++ regText x ++ " " ++ hexText [n2, n3]) := by
  rw [append_byte, highNibble_append, lowNibble_append] at hword
  have hline : p.mnemonic ++ " " ++ regText x ++ " " ++ hexText [n2, n3] =
      p.mnemonic ++ renderOperands [opFrag [op], register x, constant [n2, n3]] := by
    rw [renderOperands_opFrag_cons, renderOperands_register_cons, renderOperands_constant]
    simp only [String.append_assoc]
  rw [hline, ← ofNat_nibblesToInt_one op, ← ofNat_nibblesToInt_one x, ← ofNat_nibblesToInt_two n2 n3]
  exact exec_delivers_hit hs hword (k := 2) rfl hrow rfl

/-- Settles O42: shape S2 holds the five opcode nibbles, and any register and byte complete one of them to a
word. -/
theorem patternsWithARegisterAndAByteDecode : Obligations.PatternsWithARegisterAndAByteDecode := by
  intro s hs x n2 n3 nn c hc
  simp only [List.mem_cons, List.not_mem_nil, or_false] at hc
  obtain rfl | rfl | rfl | rfl | rfl := hc <;> exact exec_delivers_register_byte hs rfl rfl

end Sys2Proof.Machine
end

section
/-! PROOFS. The patterns with two registers (44_shape_xy.md): what an instruction of formats S3 and S4
delivers, which differ in the kind of their last symbol, and the twelve rows of the two shapes. -/

namespace Sys2Proof.Machine

open Sys2Proof.Claims

/-! ### The symbols of two registers between an opcode nibble and a last nibble -/

/-- R22: the builder of the shapes with two registers and a last nibble of the given kind. -/
def twoRegisterBuilder (kind : Kind) : Builder :=
  [⟨.opFrag, 1⟩, ⟨.register, 1⟩, ⟨.register, 1⟩, ⟨kind, 1⟩]

/-- R130: the symbols of the shapes with two registers and a last nibble of the given kind. -/
def twoRegisterSymbols (kind : Kind) (op x y n : Nibble) : List Symbol :=
  [opFrag [op], register x, register y, ⟨kind, [n]⟩]

theorem build_twoRegisterBuilder (kind : Kind) (op x y n : Nibble) :
    build (twoRegisterBuilder kind) [op, x, y, n] = twoRegisterSymbols kind op x y n := rfl

/-- R140, R92: the line is the mnemonic, both registers and then the last symbol, if it is an operand. -/
theorem append_renderOperands_twoRegisterSymbols (name : String) (kind : Kind) (op x y n : Nibble) :
    name ++ renderOperands (twoRegisterSymbols kind op x y n) =
      name ++ " " ++ regText x ++ " " ++ regText y ++ renderOperands [⟨kind, [n]⟩] := by
  rw [twoRegisterSymbols, renderOperands_opFrag_cons, renderOperands_register_cons,
    renderOperands_register_cons]
  simp only [String.append_assoc]

/-- R188, R189: what an instruction of four nibbles delivers when a shape with two registers holds its
opcode. -/
theorem exec_delivers_two_registers {s : State} (hs : s.RomsShipped) {i : Instr} {op x y n : Nibble}
    (hword : encodeWord i = op ++ x ++ y ++ n) {k : Nat} {e : Entry} {p : Pattern} {kind : Kind}
    (he : shippedDispatchRom[k]? = some e) (hbuilder : e.builder = twoRegisterBuilder kind)
    (hrow : lookup e.map (project e ⟨op, x, y, n⟩) = some p) :
    ∃ t, exec i s = .next t ∧
      Delivers s t ⟨op ++ x, y ++ n⟩
        (.known ⟨op ++ x, y ++ n⟩ p (twoRegisterSymbols kind op x y n))
        (hitPorts (.ofNat 3 k) (.ofNat 6 p.index) 4 ⟨0, 0, 1, op.setWidth 16⟩
          ⟨1, 1, 1, x.setWidth 16⟩ ⟨1, 2, 1, y.setWidth 16⟩ ⟨kindCode kind, 3, 1, n.setWidth 16⟩) ∧
      t.result.map render =
        some (p.mnemonic ++ " " ++ regText x ++ " " ++ regText y ++ renderOperands [⟨kind, [n]⟩]) := by
  have hbuild : build e.builder [op, x, y, n] = twoRegisterSymbols kind op x y n := by
    rw [hbuilder, build_twoRegisterBuilder]
  rw [← append_renderOperands_twoRegisterSymbols p.mnemonic kind op, ← ofNat_nibblesToInt_one op,
    ← ofNat_nibblesToInt_one x, ← ofNat_nibblesToInt_one y, ← ofNat_nibblesToInt_one n]
  exact exec_delivers_hit hs hword he hrow hbuild

/-! ### The rows -/

/-- R170 to R180, R188: what an instruction of format S3 delivers when shape S3 holds its opcode nibbles. -/
theorem exec_delivers_two_registers_opcode {s : State} (hs : s.RomsShipped) {i : Instr}
    {op x y low : Nibble} {p : Pattern} (hword : encodeWord i = op ++ x ++ y ++ low)
    (hrow : lookup entryS3.map ⟨some op, none, none, some low⟩ = some p) :
    ∃ t, exec i s = .next t ∧
      Delivers s t ⟨op ++ x, y ++ low⟩
        (.known ⟨op ++ x, y ++ low⟩ p [opFrag [op], register x, register y, opFrag [low]])
        (hitPorts 3 (.ofNat 6 p.index) 4 ⟨0, 0, 1, op.setWidth 16⟩ ⟨1, 1, 1, x.setWidth 16⟩
          ⟨1, 2, 1, y.setWidth 16⟩ ⟨0, 3, 1, low.setWidth 16⟩) ∧
      t.result.map render = some (p.mnemonic ++ " " ++ regText x ++ " " ++ regText y) := by
  have h := exec_delivers_two_registers hs hword (k := 3) (kind := .opFrag) rfl rfl hrow
  have hlast : renderOperands [⟨.opFrag, [low]⟩] = "" := renderOperands_opFrag_cons [low] []
  rw [hlast, String.append_empty] at h
  exact h

/-- Settles O43: shape S3 holds the eleven pairs of opcode nibbles, and any two registers complete one of them
to a word. -/
theorem patternsWithTwoRegistersDecode : Obligations.PatternsWithTwoRegistersDecode := by
  intro s hs x y c hc
  simp only [List.mem_cons, List.not_mem_nil, or_false] at hc
  obtain rfl | rfl | rfl | rfl | rfl | rfl | rfl | rfl | rfl | rfl | rfl := hc <;>
    exact exec_delivers_two_registers_opcode hs rfl rfl

/-- Settles O44: shape S4 holds the opcode nibble, and its last symbol is a constant of one digit. -/
theorem drawPatternDecodes : Obligations.DrawPatternDecodes := by
  intro s hs x y n
  have h := exec_delivers_two_registers hs (i := .draw x y n) rfl (k := 4) (kind := .constant) rfl rfl
    (p := row22) rfl
  have hlast : renderOperands [⟨.constant, [n]⟩] = " " ++ hexText [n] := renderOperands_constant [n]
  rw [hlast, ← String.append_assoc] at h
  exact h

end Sys2Proof.Machine
end

section
/-! PROOFS. The patterns with one register (45_shape_x.md): what an instruction of format S5 delivers, whose
low byte is one fragment of two nibbles, and the eleven rows of shape S5. -/

namespace Sys2Proof.Machine

open Sys2Proof.Claims

/-- R140, R92: the line of shape S5 is the mnemonic and the register; neither opcode fragment is an operand. -/
theorem append_renderOperands_register_opFrag (name : String) (op x n2 n3 : Nibble) :
    name ++ renderOperands [opFrag [op], register x, opFrag [n2, n3]] = name ++ " " ++ regText x := by
  have hlast : renderOperands [opFrag [n2, n3]] = "" := renderOperands_opFrag_cons [n2, n3] []
  rw [renderOperands_opFrag_cons, renderOperands_register_cons, hlast, String.append_empty,
    String.append_assoc]

/-- R190 to R200, R208: what an instruction of format S5 delivers when shape S5 holds its opcode nibbles. -/
theorem exec_delivers_register_opcode {s : State} (hs : s.RomsShipped) {i : Instr} {op x n2 n3 : Nibble}
    {p : Pattern} (hword : encodeWord i = op ++ x ++ (n2 ++ n3 : BitVec 8))
    (hrow : lookup entryS5.map ⟨some op, none, some n2, some n3⟩ = some p) :
    ∃ t, exec i s = .next t ∧
      Delivers s t ⟨op ++ x, n2 ++ n3⟩
        (.known ⟨op ++ x, n2 ++ n3⟩ p [opFrag [op], register x, opFrag [n2, n3]])
        (hitPorts 5 (.ofNat 6 p.index) 3 ⟨0, 0, 1, op.setWidth 16⟩ ⟨1, 1, 1, x.setWidth 16⟩
          ⟨0, 2, 2, (n2 ++ n3 : BitVec 8).setWidth 16⟩ noSlot) ∧
      t.result.map render = some (p.mnemonic ++ " " ++ regText x) := by
  rw [append_byte, highNibble_append, lowNibble_append] at hword
  rw [← append_renderOperands_register_opFrag p.mnemonic op x n2 n3, ← ofNat_nibblesToInt_one op,
    ← ofNat_nibblesToInt_one x, ← ofNat_nibblesToInt_two n2 n3]
  exact exec_delivers_hit hs hword (k := 5) rfl hrow rfl

/-- Settles O45: shape S5 holds the opcode nibble and low byte of each of the eleven rows, and any register
completes them to a word. -/
theorem patternsWithARegisterDecode : Obligations.PatternsWithARegisterDecode := by
  intro s hs x c hc
  simp only [List.mem_cons, List.not_mem_nil, or_false] at hc
  obtain rfl | rfl | rfl | rfl | rfl | rfl | rfl | rfl | rfl | rfl | rfl := hc <;>
    exact exec_delivers_register_opcode hs rfl rfl

end Sys2Proof.Machine
end

section
/-! PROOFS. Words that no row matches (46_unknown.md R210 to R213): the result and ports of a word that no
entry hits, and the step after an unknown word. -/

namespace Sys2Proof.Machine

open Sys2Proof.Claims

/-! ### The fallback -/

/-- R43, R135: the value in the slot of a symbol over the whole word. -/
theorem ofNat_nibblesToInt_asNibbles (raw : Raw) :
    BitVec.ofNat 16 (nibblesToInt (asNibbles raw).toList) = raw.word := by
  rw [nibblesToInt_asNibbles, BitVec.ofNat_toNat, BitVec.setWidth_eq]

/-- R42, R43: the match outputs of a word without a hit, and its one slot. -/
def missPorts (raw : Raw) : Ports :=
  { hitO := false, unknownO := true, diagO := true, shapeO := 7, opcodeO := 63, nsymO := 1,
    slot0 := ⟨0, 0, 4, raw.word⟩, slot1 := noSlot, slot2 := noSlot, slot3 := noSlot }

/-- R124, R212: without a hit the result is the fallback, one symbol over the word, with the diagnostic. -/
theorem decode_portsOf_of_not_hitO {d : Dispatcher} {raw : Raw} (h : hitO (decode d raw) = false) :
    decode d raw = .unknown raw [opFrag (asNibbles raw).toList] ∧ portsOf d raw = missPorts raw := by
  obtain ⟨k, e, p, -, -, -, hdec⟩ | ⟨-, hshape, hdec⟩ := decode_cases d raw
  · rw [hdec] at h
    cases h
  · refine ⟨hdec, ?_⟩
    rw [portsOf, hshape, hdec, missPorts, ← ofNat_nibblesToInt_asNibbles]
    rfl

/-- R210: the words of the fallback are those the shipped dispatch ROM does not know. -/
theorem wellFormed_unknown_iff_not_hitO {w : Word} :
    (Instr.unknown w).WellFormed ↔ hitO (decode shippedDispatchRom (Raw.ofWord w)) = false := by
  rw [wellFormed_unknown_iff, hitO_decode_shipped_eq, List.any_eq_false]
  simp only [Bool.not_eq_true]

/-- Settles O46: the instruction presents its word, which the shipped dispatch ROM does not know. -/
theorem unknownWordsDeliverTheFallback : Obligations.UnknownWordsDeliverTheFallback := by
  rintro s ⟨-, hrom⟩ w hw
  obtain ⟨hdec, hports⟩ := decode_portsOf_of_not_hitO (wellFormed_unknown_iff_not_hitO.mp hw)
  have hdelivers := present_delivers s (Raw.ofWord w)
  have hline := render_unknown (Raw.ofWord w) [opFrag (asNibbles (Raw.ofWord w)).toList]
  rw [hrom, hdec, hports, missPorts, word_ofWord, asNibbles_ofWord] at hdelivers
  rw [← hdec, ← hrom, asNibbles_ofWord] at hline
  exact ⟨_, exec_eq_present _ s, hdelivers, congrArg some hline⟩

/-! ### The word after an unknown word -/

/-- R213: a step that presents a word forgets the word presented before it. -/
theorem step_present {s : State} {c0 c1 : Byte} {rest : List Byte} (h : s.stream = c0 :: c1 :: rest)
    (raw : Raw) : step (s.present raw) = step s := by
  have hpresent : (s.present raw).stream = c0 :: c1 :: rest := h
  have hcomm : (s.present raw).advance rest = (s.advance rest).present raw := rfl
  rw [step_chunk hpresent, step_chunk h, hcomm, present_present]

/-- Settles O54: the unknown word is presented like any other, and the next word takes its place. -/
theorem unknownWordStopsNothing : Obligations.UnknownWordStopsNothing := by
  rintro s b0 b1 c0 c1 rest hs ⟨ys, hys⟩
  have hnext : (s.advance (c0 :: c1 :: rest)).stream = c0 :: c1 :: rest := rfl
  have hdiag : (portsOf s.dispatchRom ⟨b0, b1⟩).diagO = true := by
    rw [portsOf_diagO, hys]
    rfl
  exact ⟨_, _, step_chunk hs, hdiag, (step_present hnext _).trans (step_chunk hnext), step_chunk hnext,
    rfl, rfl⟩

end Sys2Proof.Machine
end

section
/-! PROOFS. The end of the stream (60_exceptions.md R223): the fault of a dangling byte. -/

namespace Sys2Proof.Machine

open Sys2Proof.Claims

/-- Settles O51: the reader finds half a chunk, so no word is presented. -/
theorem danglingByteIsAFatalStreamError : Obligations.DanglingByteIsAFatalStreamError :=
  fun _ _ hstream => step_singleton hstream

end Sys2Proof.Machine
end

section
/-! PROOFS. The input that nothing drives (the model's choice, log entry 4): a step with no word left, whose
outputs R47 and 70_reset_and_hazards.md R251 leave unspecified. -/

namespace Sys2Proof.Machine

/-- Settles O52: with no chunk left the step is `undrive`, which touches neither the ROMs nor the reader. -/
theorem endOfStreamUndrivesTheInput : Obligations.EndOfStreamUndrivesTheInput := by
  intro s hstream
  have hkept : s.undrive.stream = [] := (State.undrive_stream s).trans hstream
  exact ⟨s.undrive, step_nil hstream, State.undrive_patternRom s, State.undrive_dispatchRom s, hkept,
    State.undrive_offset s, State.undrive_instr s, State.undrive_result s⟩

end Sys2Proof.Machine
end
